-- ==== Sys2Proof/Word.lean ====
section
/-! DEFINITION. The word types of the machine (spec/00_scope.md R5, R7; spec/30_encoding.md R51). -/

namespace Sys2Proof

/-- One memory cell or one general register: 8 bits, unsigned (R5, R10, R30). -/
abbrev Byte := BitVec 8

/-- A 16-bit value: I, PC, a stack slot, an instruction word (R12 to R14, R50). -/
abbrev Word := BitVec 16

/-- The instruction field `nnn`: a 12-bit address (R51, R53). -/
abbrev Addr12 := BitVec 12

/-- A register index, the instruction fields `x` and `y`; every value is valid (R10, R51). -/
abbrev RegIdx := BitVec 4

/-- The instruction field `n`: a count 0..15 (R51, R53). -/
abbrev Nibble := BitVec 4

end Sys2Proof
end

