-- ==== Sys2Proof/Syntax.lean ====
section
/-! DEFINITION. The 42 instructions of spec/opcode_table.json (spec/30_encoding.md R54). -/

namespace Sys2Proof

/-- One constructor per row of the opcode table, in the table's order, with the fields of R51 and R52. The ignored low nibble
of 5xy_ and 9xy_ (R58) is no field: nothing in the machine depends on it. -/
inductive Instr where
  /-- `00Cn` SCD n -/
  | scd (n : Nibble)
  /-- `00E0` CLS -/
  | cls
  /-- `00EE` RET -/
  | ret
  /-- `00FB` SCR -/
  | scr
  /-- `00FC` SCL -/
  | scl
  /-- `00FE` LOW -/
  | low
  /-- `00FF` HIGH -/
  | high
  /-- `1nnn` JP nnn -/
  | jp (nnn : Addr12)
  /-- `2nnn` CALL nnn -/
  | call (nnn : Addr12)
  /-- `3xkk` SE Vx,kk -/
  | seImm (x : RegIdx) (kk : Byte)
  /-- `4xkk` SNE Vx,kk -/
  | sneImm (x : RegIdx) (kk : Byte)
  /-- `5xy_` SE Vx,Vy -/
  | seReg (x y : RegIdx)
  /-- `6xkk` LD Vx,kk -/
  | ldImm (x : RegIdx) (kk : Byte)
  /-- `7xkk` ADD Vx,kk -/
  | addImm (x : RegIdx) (kk : Byte)
  /-- `8xy0` LD Vx,Vy -/
  | ldReg (x y : RegIdx)
  /-- `8xy1` OR Vx,Vy -/
  | orReg (x y : RegIdx)
  /-- `8xy2` AND Vx,Vy -/
  | andReg (x y : RegIdx)
  /-- `8xy3` XOR Vx,Vy -/
  | xorReg (x y : RegIdx)
  /-- `8xy4` ADD Vx,Vy -/
  | addReg (x y : RegIdx)
  /-- `8xy5` SUB Vx,Vy -/
  | sub (x y : RegIdx)
  /-- `8xy6` SHR Vx, Vy optional -/
  | shr (x y : RegIdx)
  /-- `8xy7` SUBN Vx,Vy -/
  | subn (x y : RegIdx)
  /-- `8xyE` SHL Vx, Vy optional -/
  | shl (x y : RegIdx)
  /-- `9xy_` SNE Vx,Vy -/
  | sneReg (x y : RegIdx)
  /-- `Annn` LD I,nnn -/
  | ldI (nnn : Addr12)
  /-- `Bnnn` JP V0,nnn -/
  | jpV0 (nnn : Addr12)
  /-- `Cxkk` RND Vx,kk -/
  | rnd (x : RegIdx) (kk : Byte)
  /-- `Dxyn` DRW Vx,Vy,n -/
  | drw (x y : RegIdx) (n : Nibble)
  /-- `Ex9E` SKP Vx -/
  | skp (x : RegIdx)
  /-- `ExA1` SKNP Vx -/
  | sknp (x : RegIdx)
  /-- `Fx07` LD Vx,DT -/
  | ldVxDT (x : RegIdx)
  /-- `Fx0A` LD Vx,K -/
  | ldVxK (x : RegIdx)
  /-- `Fx15` LD DT,Vx -/
  | ldDTVx (x : RegIdx)
  /-- `Fx18` LD ST,Vx -/
  | ldSTVx (x : RegIdx)
  /-- `Fx1E` ADD I,Vx -/
  | addI (x : RegIdx)
  /-- `Fx29` LD F,Vx -/
  | ldF (x : RegIdx)
  /-- `Fx30` LD HF,Vx -/
  | ldHF (x : RegIdx)
  /-- `Fx33` LD B,Vx -/
  | ldB (x : RegIdx)
  /-- `Fx55` LD [I],Vx -/
  | ldMemVx (x : RegIdx)
  /-- `Fx65` LD Vx,[I] -/
  | ldVxMem (x : RegIdx)
  /-- `Fx75` LD R,Vx -/
  | ldRVx (x : RegIdx)
  /-- `Fx85` LD Vx,R -/
  | ldVxR (x : RegIdx)
deriving DecidableEq, Repr

end Sys2Proof
end

