-- ==== Sys2Proof/WellFormed.lean ====
section
/-! DEFINITION. Well-formedness. Every term of `Instr` is well-formed: its operand types carry the bounds of R51 and R53 (x, y,
n below 16, kk below 256, nnn below 4096), so that an ill-formed term cannot be written. What is left to check is a WORD: the
checks of spec/30_encoding.md R57 (the unknown words, one check per row of its table) and R58 (the ignored nibble). -/

namespace Sys2Proof

/-- Row 1 of R57: family 0 words other than 00C0..00CF, 00E0, 00EE, 00FB, 00FC, 00FE, 00FF. -/
def unknownFamily0 (w : Word) : Bool :=
  w.toNat < 0x1000 &&
    !(0x00C0 ≤ w.toNat && w.toNat ≤ 0x00CF || w == 0x00E0 || w == 0x00EE || w == 0x00FB || w == 0x00FC || w == 0x00FE ||
      w == 0x00FF)

/-- Row 2 of R57: `0x8xyN` with N in 8, 9, A, B, C, D, F. -/
def unknownFamily8 (w : Word) : Bool :=
  w.toNat / 0x1000 == 0x8 && [0x8, 0x9, 0xA, 0xB, 0xC, 0xD, 0xF].contains (w.toNat % 16)

/-- Row 3 of R57: `0xExkk` with kk not 9E or A1. -/
def unknownFamilyE (w : Word) : Bool :=
  w.toNat / 0x1000 == 0xE && !([0x9E, 0xA1].contains (w.toNat % 256))

/-- Row 4 of R57: `0xFxkk` with kk not one of the twelve sub-operations. -/
def unknownFamilyF (w : Word) : Bool :=
  w.toNat / 0x1000 == 0xF &&
    !([0x07, 0x0A, 0x15, 0x18, 0x1E, 0x29, 0x30, 0x33, 0x55, 0x65, 0x75, 0x85].contains (w.toNat % 256))

/-- "The unknown words are exactly" the four rows of R57. -/
def unknownWord (w : Word) : Bool :=
  unknownFamily0 w || unknownFamily8 w || unknownFamilyE w || unknownFamilyF w

/-- R58: in families 5 and 9 the canonical form has N = 0; no other family ignores a bit. -/
def canonicalNibble (w : Word) : Bool :=
  !(w.toNat / 0x1000 == 0x5 || w.toNat / 0x1000 == 0x9) || w.toNat % 16 == 0

/-- A well-formed word: known, and in the canonical form an assembler emits (R57, R58). -/
def Word.wellFormed (w : Word) : Bool :=
  !unknownWord w && canonicalNibble w

end Sys2Proof
end

