-- ==== Sys2Proof/Decode.lean ====
section
/-! DEFINITION. The decoder (spec/30_encoding.md R51, R54, R55, R57, R58), the encoder, and the host's
`decodeTableWord`. The opcode numbers other than 6xkk and 8xy4 are the spec's own adoption of the standard numbering (log 4). -/

namespace Sys2Proof

/-- Why a word or a list of bytes is no instruction; the first four are the rows of R57's table. -/
inductive Unknown where
  /-- a family 0 word that is none of the seven patterns -/
  | family0
  /-- `0x8xyN` with an unused sub-operation N -/
  | family8
  /-- `0xExkk` with an unused low byte -/
  | familyE
  /-- `0xFxkk` with an unused low byte -/
  | familyF
  /-- fewer than two bytes: every instruction is one 16-bit word (R50) -/
  | truncated
deriving DecidableEq, Repr

/-- The result of decoding: R55's "tagged variant" that "makes 'unknown opcode' a structurally representable case". -/
inductive Decoded where
  | instr (i : Instr)
  | unknown (why : Unknown)
deriving DecidableEq, Repr

/-- `op`, bits 15:12 (R51). -/
def opField (w : Word) : BitVec 4 := w.extractLsb' 12 4

/-- `x`, bits 11:8 (R51). -/
def xField (w : Word) : RegIdx := w.extractLsb' 8 4

/-- `y`, bits 7:4 (R51). -/
def yField (w : Word) : RegIdx := w.extractLsb' 4 4

/-- `n`, bits 3:0 (R51). -/
def nField (w : Word) : Nibble := w.extractLsb' 0 4

/-- `kk`, bits 7:0 (R51). -/
def kkField (w : Word) : Byte := w.extractLsb' 0 8

/-- `nnn`, bits 11:0 (R51). -/
def nnnField (w : Word) : Addr12 := w.extractLsb' 0 12

/-- Family 0, matched on all 12 low bits (R54, R57). -/
def decodeFamily0 (w : Word) : Decoded :=
  if w.extractLsb' 4 12 = 0x00C then .instr (.scd (nField w))
  else if w = 0x00E0 then .instr .cls
  else if w = 0x00EE then .instr .ret
  else if w = 0x00FB then .instr .scr
  else if w = 0x00FC then .instr .scl
  else if w = 0x00FE then .instr .low
  else if w = 0x00FF then .instr .high
  else .unknown .family0

/-- Family 8, secondary dispatch on the low nibble (R54). -/
def decodeFamily8 (w : Word) : Decoded :=
  let x := xField w
  let y := yField w
  let n := nField w
  if n = 0x0 then .instr (.ldReg x y)
  else if n = 0x1 then .instr (.orReg x y)
  else if n = 0x2 then .instr (.andReg x y)
  else if n = 0x3 then .instr (.xorReg x y)
  else if n = 0x4 then .instr (.addReg x y)
  else if n = 0x5 then .instr (.sub x y)
  else if n = 0x6 then .instr (.shr x y)
  else if n = 0x7 then .instr (.subn x y)
  else if n = 0xE then .instr (.shl x y)
  else .unknown .family8

/-- Family E, secondary dispatch on the low byte (R54). -/
def decodeFamilyE (w : Word) : Decoded :=
  let x := xField w
  let kk := kkField w
  if kk = 0x9E then .instr (.skp x)
  else if kk = 0xA1 then .instr (.sknp x)
  else .unknown .familyE

/-- Family F, secondary dispatch on the low byte (R54). -/
def decodeFamilyF (w : Word) : Decoded :=
  let x := xField w
  let kk := kkField w
  if kk = 0x07 then .instr (.ldVxDT x)
  else if kk = 0x0A then .instr (.ldVxK x)
  else if kk = 0x15 then .instr (.ldDTVx x)
  else if kk = 0x18 then .instr (.ldSTVx x)
  else if kk = 0x1E then .instr (.addI x)
  else if kk = 0x29 then .instr (.ldF x)
  else if kk = 0x30 then .instr (.ldHF x)
  else if kk = 0x33 then .instr (.ldB x)
  else if kk = 0x55 then .instr (.ldMemVx x)
  else if kk = 0x65 then .instr (.ldVxMem x)
  else if kk = 0x75 then .instr (.ldRVx x)
  else if kk = 0x85 then .instr (.ldVxR x)
  else .unknown .familyF

/-- `Decode(w)`, total on every word (R55): "The top nibble selects a primary family". In families 5 and 9 the low
nibble is not examined (R58). -/
def decodeWord (w : Word) : Decoded :=
  let op := opField w
  let x := xField w
  let y := yField w
  let kk := kkField w
  let nnn := nnnField w
  if op = 0x0 then decodeFamily0 w
  else if op = 0x1 then .instr (.jp nnn)
  else if op = 0x2 then .instr (.call nnn)
  else if op = 0x3 then .instr (.seImm x kk)
  else if op = 0x4 then .instr (.sneImm x kk)
  else if op = 0x5 then .instr (.seReg x y)
  else if op = 0x6 then .instr (.ldImm x kk)
  else if op = 0x7 then .instr (.addImm x kk)
  else if op = 0x8 then decodeFamily8 w
  else if op = 0x9 then .instr (.sneReg x y)
  else if op = 0xA then .instr (.ldI nnn)
  else if op = 0xB then .instr (.jpV0 nnn)
  else if op = 0xC then .instr (.rnd x kk)
  else if op = 0xD then .instr (.drw x y (nField w))
  else if op = 0xE then decodeFamilyE w
  else decodeFamilyF w

/-- The word of two bytes, the first at the lower address: big-endian (R35, R37). -/
def wordOfBytes (hi lo : Byte) : Word := hi ++ lo

/-- The decoder on any bytes: the first word of the list and the bytes behind it. -/
def decodeBytes : List Byte → Decoded × List Byte
  | hi :: lo :: rest => (decodeWord (wordOfBytes hi lo), rest)
  | bs => (.unknown .truncated, bs)

/-- The bytes of a word as memory holds them, the high byte first (R37). -/
def bytesOfWord (w : Word) : List Byte := [w.extractLsb' 8 8, w.extractLsb' 0 8]

/-- The 16 bits of a row of the opcode table, the bits above `nbits` zero. -/
def tableWord (nbits w : Nat) : Word := BitVec.ofNat 16 (w % 2 ^ nbits)

/-- What the decoder reads from an instruction whose bits are `w`, numbered as spec/opcode_table.json numbers them
(one 16-bit word, bit 0 the least significant). -/
def decodeTableWord (nbits w : Nat) : Option Instr :=
  match (decodeBytes (bytesOfWord (tableWord nbits w))).1 with
  | .instr i => some i
  | .unknown _ => none

/-- Format A: a family and a 12-bit address (R52). -/
def encodeA (op : BitVec 4) (nnn : Addr12) : Word := op ++ nnn

/-- Formats XK and X: a family, a register and a low byte (R52). -/
def encodeXK (op : BitVec 4) (x : RegIdx) (kk : Byte) : Word := op ++ x ++ kk

/-- Formats XY, XYI and XYN: a family, two registers and a low nibble (R52). -/
def encodeXYN (op : BitVec 4) (x y : RegIdx) (n : Nibble) : Word := op ++ x ++ y ++ n

/-- The word of an instruction, from the formats of R52 and the numbers of R54; families 5 and 9 in the canonical form
N = 0 (R58). -/
def encode : Instr → Word
  | .scd n => encodeXYN 0x0 0x0 0xC n
  | .cls => 0x00E0
  | .ret => 0x00EE
  | .scr => 0x00FB
  | .scl => 0x00FC
  | .low => 0x00FE
  | .high => 0x00FF
  | .jp nnn => encodeA 0x1 nnn
  | .call nnn => encodeA 0x2 nnn
  | .seImm x kk => encodeXK 0x3 x kk
  | .sneImm x kk => encodeXK 0x4 x kk
  | .seReg x y => encodeXYN 0x5 x y 0x0
  | .ldImm x kk => encodeXK 0x6 x kk
  | .addImm x kk => encodeXK 0x7 x kk
  | .ldReg x y => encodeXYN 0x8 x y 0x0
  | .orReg x y => encodeXYN 0x8 x y 0x1
  | .andReg x y => encodeXYN 0x8 x y 0x2
  | .xorReg x y => encodeXYN 0x8 x y 0x3
  | .addReg x y => encodeXYN 0x8 x y 0x4
  | .sub x y => encodeXYN 0x8 x y 0x5
  | .shr x y => encodeXYN 0x8 x y 0x6
  | .subn x y => encodeXYN 0x8 x y 0x7
  | .shl x y => encodeXYN 0x8 x y 0xE
  | .sneReg x y => encodeXYN 0x9 x y 0x0
  | .ldI nnn => encodeA 0xA nnn
  | .jpV0 nnn => encodeA 0xB nnn
  | .rnd x kk => encodeXK 0xC x kk
  | .drw x y n => encodeXYN 0xD x y n
  | .skp x => encodeXK 0xE x 0x9E
  | .sknp x => encodeXK 0xE x 0xA1
  | .ldVxDT x => encodeXK 0xF x 0x07
  | .ldVxK x => encodeXK 0xF x 0x0A
  | .ldDTVx x => encodeXK 0xF x 0x15
  | .ldSTVx x => encodeXK 0xF x 0x18
  | .addI x => encodeXK 0xF x 0x1E
  | .ldF x => encodeXK 0xF x 0x29
  | .ldHF x => encodeXK 0xF x 0x30
  | .ldB x => encodeXK 0xF x 0x33
  | .ldMemVx x => encodeXK 0xF x 0x55
  | .ldVxMem x => encodeXK 0xF x 0x65
  | .ldRVx x => encodeXK 0xF x 0x75
  | .ldVxR x => encodeXK 0xF x 0x85

/-- One row of the opcode map: `w and mask = pattern` (R54). -/
structure OpcodeRow where
  pattern : Word
  mask : Word
deriving DecidableEq, Repr

/-- A word fits a row of R54. -/
def OpcodeRow.fits (r : OpcodeRow) (w : Word) : Bool := w &&& r.mask == r.pattern

/-- The row of the opcode map R54 that an instruction belongs to. -/
def opcodeRow : Instr → OpcodeRow
  | .scd _ => ⟨0x00C0, 0xFFF0⟩
  | .cls => ⟨0x00E0, 0xFFFF⟩
  | .ret => ⟨0x00EE, 0xFFFF⟩
  | .scr => ⟨0x00FB, 0xFFFF⟩
  | .scl => ⟨0x00FC, 0xFFFF⟩
  | .low => ⟨0x00FE, 0xFFFF⟩
  | .high => ⟨0x00FF, 0xFFFF⟩
  | .jp _ => ⟨0x1000, 0xF000⟩
  | .call _ => ⟨0x2000, 0xF000⟩
  | .seImm _ _ => ⟨0x3000, 0xF000⟩
  | .sneImm _ _ => ⟨0x4000, 0xF000⟩
  | .seReg _ _ => ⟨0x5000, 0xF000⟩
  | .ldImm _ _ => ⟨0x6000, 0xF000⟩
  | .addImm _ _ => ⟨0x7000, 0xF000⟩
  | .ldReg _ _ => ⟨0x8000, 0xF00F⟩
  | .orReg _ _ => ⟨0x8001, 0xF00F⟩
  | .andReg _ _ => ⟨0x8002, 0xF00F⟩
  | .xorReg _ _ => ⟨0x8003, 0xF00F⟩
  | .addReg _ _ => ⟨0x8004, 0xF00F⟩
  | .sub _ _ => ⟨0x8005, 0xF00F⟩
  | .shr _ _ => ⟨0x8006, 0xF00F⟩
  | .subn _ _ => ⟨0x8007, 0xF00F⟩
  | .shl _ _ => ⟨0x800E, 0xF00F⟩
  | .sneReg _ _ => ⟨0x9000, 0xF000⟩
  | .ldI _ => ⟨0xA000, 0xF000⟩
  | .jpV0 _ => ⟨0xB000, 0xF000⟩
  | .rnd _ _ => ⟨0xC000, 0xF000⟩
  | .drw _ _ _ => ⟨0xD000, 0xF000⟩
  | .skp _ => ⟨0xE09E, 0xF0FF⟩
  | .sknp _ => ⟨0xE0A1, 0xF0FF⟩
  | .ldVxDT _ => ⟨0xF007, 0xF0FF⟩
  | .ldVxK _ => ⟨0xF00A, 0xF0FF⟩
  | .ldDTVx _ => ⟨0xF015, 0xF0FF⟩
  | .ldSTVx _ => ⟨0xF018, 0xF0FF⟩
  | .addI _ => ⟨0xF01E, 0xF0FF⟩
  | .ldF _ => ⟨0xF029, 0xF0FF⟩
  | .ldHF _ => ⟨0xF030, 0xF0FF⟩
  | .ldB _ => ⟨0xF033, 0xF0FF⟩
  | .ldMemVx _ => ⟨0xF055, 0xF0FF⟩
  | .ldVxMem _ => ⟨0xF065, 0xF0FF⟩
  | .ldRVx _ => ⟨0xF075, 0xF0FF⟩
  | .ldVxR _ => ⟨0xF085, 0xF0FF⟩

/-- The rows of R54, families 0 to 7. -/
def opcodeMapLow : List OpcodeRow :=
  [⟨0x00C0, 0xFFF0⟩, ⟨0x00E0, 0xFFFF⟩, ⟨0x00EE, 0xFFFF⟩, ⟨0x00FB, 0xFFFF⟩, ⟨0x00FC, 0xFFFF⟩, ⟨0x00FE, 0xFFFF⟩, ⟨0x00FF, 0xFFFF⟩,
   ⟨0x1000, 0xF000⟩, ⟨0x2000, 0xF000⟩, ⟨0x3000, 0xF000⟩, ⟨0x4000, 0xF000⟩, ⟨0x5000, 0xF000⟩, ⟨0x6000, 0xF000⟩, ⟨0x7000, 0xF000⟩]

/-- The rows of R54, families 8 to D. -/
def opcodeMapMid : List OpcodeRow :=
  [⟨0x8000, 0xF00F⟩, ⟨0x8001, 0xF00F⟩, ⟨0x8002, 0xF00F⟩, ⟨0x8003, 0xF00F⟩, ⟨0x8004, 0xF00F⟩, ⟨0x8005, 0xF00F⟩, ⟨0x8006, 0xF00F⟩,
   ⟨0x8007, 0xF00F⟩, ⟨0x800E, 0xF00F⟩, ⟨0x9000, 0xF000⟩, ⟨0xA000, 0xF000⟩, ⟨0xB000, 0xF000⟩, ⟨0xC000, 0xF000⟩, ⟨0xD000, 0xF000⟩]

/-- The rows of R54, families E and F. -/
def opcodeMapHigh : List OpcodeRow :=
  [⟨0xE09E, 0xF0FF⟩, ⟨0xE0A1, 0xF0FF⟩, ⟨0xF007, 0xF0FF⟩, ⟨0xF00A, 0xF0FF⟩, ⟨0xF015, 0xF0FF⟩, ⟨0xF018, 0xF0FF⟩, ⟨0xF01E, 0xF0FF⟩,
   ⟨0xF029, 0xF0FF⟩, ⟨0xF030, 0xF0FF⟩, ⟨0xF033, 0xF0FF⟩, ⟨0xF055, 0xF0FF⟩, ⟨0xF065, 0xF0FF⟩, ⟨0xF075, 0xF0FF⟩, ⟨0xF085, 0xF0FF⟩]

/-- The opcode map of R54, in its order. -/
def opcodeMap : List OpcodeRow :=
  opcodeMapLow ++ opcodeMapMid ++ opcodeMapHigh

end Sys2Proof
end

