-- ==== Sys2Proof/Config.lean ====
section
/-! DEFINITION. The configuration record `Q` (spec/00_scope.md R6) and the machine's two free values. -/

namespace Sys2Proof

/-- The configuration record `Q` of R6: fixed from construction on, never changed by any event. `Q.SMALLFONT_BASE` is
not a field, since R6 fixes it at 0 ("not configurable"). The default values of R6 are
`Sys2Proof.Machine.defaultConfig`; every state carries its own record, so that a statement about every state is one about
every configuration (log 1). -/
structure Config where
  /-- true: SHR and SHL shift V[x] in place; false: they shift V[y] and write V[x]. -/
  shiftIgnoresVy : Bool
  /-- true: LD [I],Vx and LD Vx,[I] add x + 1 to I afterwards. -/
  storeLoadIncrementsIndex : Bool
  /-- true: JP V0,nnn adds V[nnn[11:8]] instead of V[0]. -/
  jumpQuirk : Bool
  /-- true: DRW with n = 0 in extended mode draws a 16x16 sprite; false: zero rows. -/
  extendedSpriteSupport : Bool
  /-- The ADD I,Vx flag: false for sum > 0xFFF, true for sum >= 0xFFF. -/
  addiOverflowInclusive : Bool
  /-- `Q.LOAD_ADDRESS`: the value PC takes at reset. -/
  loadAddress : Addr12
  /-- `Q.BIGFONT_BASE`: the base of the 10-byte glyphs. -/
  bigFontBase : Addr12
  /-- `Q.FONT_SMALL`: 16 glyphs of 5 bytes. -/
  fontSmall : Vector Byte 80
  /-- `Q.FONT_LARGE`: 16 glyphs of 10 bytes; OPEN in the spec (log 3). -/
  fontLarge : Vector Byte 160
  /-- `Q.SCROLL_H`, an integer: the columns moved by SCR and SCL; a negative one reverses the direction (log 14). -/
  scrollH : Int
  /-- `Q.TICK_PERIOD`, in clock units (log 9). -/
  tickPeriod : Nat
deriving DecidableEq, Repr

/-- The byte on the `rnd` port at a step into which the outside world injected none: a draw under no law (R102, D25),
a free value nothing is known of; the argument is the draw's number (log 6). -/
opaque Config.freeRnd : Nat → Byte

/-- The cells of a display row that SCR and SCL with a negative distance read from columns outside the grid, where there is no
cell and R134 and R135 state no value: a free value nothing is known of; the arguments are the step's number and the row, bit
`c` goes to column `c` (log 14). -/
opaque Config.freeCells : Nat → Nat → BitVec 128

end Sys2Proof
end

