-- ==== Sys2Proof/Machine/Defaults.lean ====
section
/-! DEFINITION. The default configuration (spec/00_scope.md R6), the small font (spec/70_reset_and_hazards.md R202), and what
a memory cell reads as after reset (spec/10_state.md R26). -/

namespace Sys2Proof.Machine

/-- The glyphs 0 to 7 of R202's table. -/
def smallGlyphs0to7 : List Byte :=
  [0xF0, 0x90, 0x90, 0x90, 0xF0] ++ [0x20, 0x60, 0x20, 0x20, 0x70] ++
  [0xF0, 0x10, 0xF0, 0x80, 0xF0] ++ [0xF0, 0x10, 0xF0, 0x10, 0xF0] ++
  [0x90, 0x90, 0xF0, 0x10, 0x10] ++ [0xF0, 0x80, 0xF0, 0x10, 0xF0] ++
  [0xF0, 0x80, 0xF0, 0x90, 0xF0] ++ [0xF0, 0x10, 0x20, 0x40, 0x40]

/-- The glyphs 8 to F of R202's table. -/
def smallGlyphs8toF : List Byte :=
  [0xF0, 0x90, 0xF0, 0x90, 0xF0] ++ [0xF0, 0x90, 0xF0, 0x10, 0xF0] ++
  [0xF0, 0x90, 0xF0, 0x90, 0x90] ++ [0xE0, 0x90, 0xE0, 0x90, 0xE0] ++
  [0xF0, 0x80, 0x80, 0x80, 0xF0] ++ [0xE0, 0x90, 0x90, 0x90, 0xE0] ++
  [0xF0, 0x80, 0xF0, 0x80, 0xF0] ++ [0xF0, 0x80, 0xF0, 0x80, 0x80]

/-- The default of `Q.FONT_SMALL`: glyph `d` at bytes 5*d .. 5*d+4, top row first, bit 7 leftmost (R202). -/
def smallFont : Vector Byte 80 := ⟨⟨smallGlyphs0to7 ++ smallGlyphs8toF⟩, rfl⟩

/-- A stand-in for `Q.FONT_LARGE`, which has no default: "all-zero is an acceptable stand-in that keeps every rule valid"
(R202). DESIGN CHOICE (log 3), unsafe: no statement rests on it. -/
def largeFontStandIn : Vector Byte 160 := Vector.replicate 160 0

/-- The default values of R6. `Q.TICK_PERIOD` = 1/60 s is 2 clock units of 1/120 s (log 9). -/
def defaultConfig : Config where
  shiftIgnoresVy := true
  storeLoadIncrementsIndex := false
  jumpQuirk := false
  extendedSpriteSupport := true
  addiOverflowInclusive := false
  loadAddress := 0x200
  bigFontBase := 0x050
  fontSmall := smallFont
  fontLarge := largeFontStandIn
  scrollH := 4
  tickPeriod := 2

/-- The number of memory cells (R5, R30). -/
def memSize : Nat := 4096

/-- What `MEM[a]` holds after `Reset`, and so what an address that memory does not list reads as: the large font from
`Q.BIGFONT_BASE` on, the small font from 0 on, 0 elsewhere (R26, R202; log 12). The large font is installed last and its
addresses are masked like every other (log 13); with the default base 0x050 neither matters. -/
def resetByte (q : Config) (a : Nat) : Byte :=
  let k := (a + memSize - q.bigFontBase.toNat) % memSize
  if hk : k < 160 then q.fontLarge[k]
  else if ha : a < 80 then q.fontSmall[a]
  else 0

end Sys2Proof.Machine
end

