-- ==== Sys2Proof/Machine/State.lean ====
section
/-! DEFINITION. The machine's state (spec/10_state.md R10 to R27), its events (spec/00_scope.md R2), the reasons a step can
stop (none), and the state after reset (R200). -/

namespace Sys2Proof.Machine

/-- The display buffer: 64 rows of 128 cells, of which the top-left W x H part is the grid (R21). Bit `c` of row `r` is
`FB[r][c]`: bit 0 is the leftmost column (log 10). -/
abbrev Frame := Vector (BitVec 128) 64

/-- Memory: the cells that differ from their reset contents, addresses strictly rising (log 12). -/
abbrev Memory := List Host.Cell

/-- The kinds of diagnostic a step can raise (R22, R170). None of them stops the machine (R175). -/
inductive Diag where
  | unknownOpcode
  | stackUnderflow
  | stackOverflow
  | addressOverflow
deriving DecidableEq, Repr

/-- The result of the host operation `Load` (R189). -/
inductive LoadResult where
  | ok
  | loadError
deriving DecidableEq, Repr

/-- The events of R2, with their inputs. The reads `Framebuffer()` and `Snapshot()` change nothing and are functions of the
state (Machine/HostPort.lean). -/
inductive Event where
  /-- CPU: one step, with the byte on the `rnd` port. -/
  | step (rnd : Byte)
  /-- TIMER: the untimed ticks of R182. -/
  | tickDT
  | tickST
  /-- TIMER: the timed tick of R181, `now` in clock units (log 9). -/
  | tickTimers (now : Nat)
  /-- HOST: `SetKey(k, pressed)`; a 4-bit index, so none outside 0..15 can be presented (R185). -/
  | setKey (k : BitVec 4) (pressed : Bool)
  /-- HOST: `ConsumeFrame` (R187). -/
  | consumeFrame
  /-- HOST: `Load(bytes, address)` (R189). -/
  | load (bytes : List Byte) (address : Word)
  /-- HOST: `Reset` at a time (R200). -/
  | reset (time : Nat)
deriving DecidableEq, Repr

/-- What stops the machine: nothing. "The step function is total and never refuses" (R56); the spec's error kinds are
diagnostics after which the machine goes on (R170, R175; `Diag`), so no meaning raises a fault and the type is empty. -/
inductive Fault where
deriving DecidableEq, Repr

/-- Why an instruction has no meaning. -/
inductive Refusal where
  /-- Raised by an arm of `exec` whose instruction has no meaning yet; safe. No arm of this model raises it. -/
  | notModelled (mnemonic : String)
deriving DecidableEq, Repr

/-- The machine's state. -/
structure State where
  /-- `V[0..15]`; `V[15]` is VF, an ordinary register that is also the flag register (R10, R11). -/
  v : Vector Byte 16
  /-- `I`, 16 bits, never masked to 12 (R13). -/
  i : Word
  /-- `PC`, 16 bits, never masked to 12 (R12). -/
  pc : Word
  /-- `STACK[0..15]` (R14). -/
  stack : Vector Word 16
  /-- `SP` in 0..16, the number of occupied slots (R15; log 11). -/
  sp : Fin 17
  /-- `AUX[0..15]` (R16). -/
  aux : Vector Byte 16
  /-- `DT`, the delay timer (R17). -/
  dt : Byte
  /-- `ST`, the sound timer (R17). -/
  st : Byte
  /-- `KEYS[0..15]` (R18). -/
  keys : Vector Bool 16
  /-- `EXT`, the mode flag (R19). -/
  ext : Bool
  /-- `DIRTY`, the "needs redraw" flag (R20). -/
  dirty : Bool
  /-- `FB`, the display buffer (R21). -/
  fb : Frame
  /-- `MEM[0..4095]` (R26, R30). -/
  mem : Memory
  /-- `DIAG`, the diag port: the diagnostics of the latest step (R22; log 7). -/
  diag : BitVec 4
  /-- `LAST_DT`, the delay timer's timestamp (R23). -/
  lastDT : Nat
  /-- `LAST_ST`, the sound timer's timestamp (R23). -/
  lastST : Nat
  /-- `LAST_WORD`, the word fetched by the latest step (R24). -/
  lastWord : Word
  /-- The configuration `Q`, constant (R6; log 1). -/
  cfg : Config
  /-- The model's own: the byte on the `rnd` port of the current step (R3; log 6). -/
  rnd : Byte
  /-- The model's own: the number of the CPU step, which selects its free values (log 6, log 14). -/
  draws : Nat
  /-- The model's own: the events the agents have queued, oldest first; when there is none the CPU steps (log 5). -/
  pending : List Event
  /-- The model's own: the load port, the result of the latest `Load` (R3, R189; log 8). -/
  loadResult : Option LoadResult
deriving DecidableEq, Repr

/-- The state after `Reset` at time `t` of a machine configured by `q` (R200, R27), with nothing queued. -/
def State.resetWith (q : Config) (t : Nat) : State where
  v := Vector.replicate 16 0
  i := 0
  pc := q.loadAddress.setWidth 16
  stack := Vector.replicate 16 0
  sp := 0
  aux := Vector.replicate 16 0
  dt := 0
  st := 0
  keys := Vector.replicate 16 false
  ext := false
  dirty := false
  fb := Vector.replicate 64 0
  mem := []
  diag := 0
  lastDT := t
  lastST := t
  lastWord := 0
  cfg := q
  rnd := 0
  draws := 0
  pending := []
  loadResult := none

/-- The state right after reset: the default configuration, the reset at time 0 (log 9). -/
def State.reset : State := State.resetWith defaultConfig 0

end Sys2Proof.Machine
end

