-- ==== Sys2Proof/Machine/Memory.lean ====
section
/-! DEFINITION. Memory as a canonical list of cells: reading and writing one byte (spec/20_memory.md R30, R33, R34). -/

namespace Sys2Proof.Machine

/-- The byte listed at an address, if one is. -/
def Memory.find : Memory → Nat → Option Byte
  | [], _ => none
  | (k, b) :: m, a => if a = k then some b else Memory.find m a

/-- `MEM[a]`: the listed byte, else the reset contents. -/
def Memory.read (q : Config) (m : Memory) (a : Nat) : Byte :=
  (Memory.find m a).getD (resetByte q a)

/-- Lists a byte at an address, keeping the addresses rising. -/
def Memory.insert : Memory → Nat → Byte → Memory
  | [], a, v => [(a, v)]
  | (k, b) :: m, a, v =>
    if a < k then (a, v) :: (k, b) :: m
    else if a = k then (a, v) :: m
    else (k, b) :: Memory.insert m a v

/-- Lists nothing at an address any more. -/
def Memory.erase (m : Memory) (a : Nat) : Memory :=
  m.filter fun c => c.1 != a

/-- `MEM[a] <- v`, in the canonical form: a cell that holds its reset contents is not listed. -/
def Memory.write (q : Config) (m : Memory) (a : Nat) (v : Byte) : Memory :=
  if v = resetByte q a then Memory.erase m a else Memory.insert m a v

/-- The canonical form: addresses strictly rising and inside 0..4095, no entry equal to the reset contents. -/
abbrev Memory.wf (q : Config) (m : Memory) : Prop :=
  m.Pairwise (fun c d => c.1 < d.1) ∧ ∀ c ∈ m, c.1 < memSize ∧ c.2 ≠ resetByte q c.1

end Sys2Proof.Machine
end

