-- ==== Sys2Proof/Machine/Ops.lean ====
section
/-! DEFINITION. The named operations over registers, program counter, diagnostics, memory, stack and keys that every meaning
is written with. -/

namespace Sys2Proof.Machine

/-- What a meaning answers. -/
abbrev Result := Host.Outcome State Fault Refusal

/-- `V[x]` (R10). -/
def State.reg (s : State) (x : RegIdx) : Byte :=
  s.v[x.toNat]'x.isLt

/-- `V[x] <- b` (R10). -/
def State.setReg (x : RegIdx) (b : Byte) (s : State) : State :=
  { s with v := s.v.set x.toNat b x.isLt }

/-- `I <- a` (R13). -/
def State.setI (a : Word) (s : State) : State :=
  { s with i := a }

/-- `PC <- a` (R7). -/
def State.setPc (a : Word) (s : State) : State :=
  { s with pc := a }

/-- `PC <- PC + 2` modulo 65536 (R7, R12). -/
def State.advance (s : State) : State :=
  { s with pc := s.pc + 2 }

/-- `if c then PC <- PC + 4 else PC <- PC + 2` (R56, R74). -/
def State.skipIf (c : Bool) (s : State) : State :=
  { s with pc := s.pc + (if c then 4 else 2) }

/-- The bit of DIAG of a kind (R22). -/
def Diag.bit : Diag → BitVec 4
  | .unknownOpcode => 0b0001
  | .stackUnderflow => 0b0010
  | .stackOverflow => 0b0100
  | .addressOverflow => 0b1000

/-- `raise <Kind>`: sets the bit and continues (R7, R170). It saves no state and transfers control nowhere (R175): this is
all that "taking an exception" is on this machine. -/
def State.raise (k : Diag) (s : State) : State :=
  { s with diag := s.diag ||| k.bit }

/-- An instruction that "cannot be resolved safely must degrade to a no-op plus diagnostic" (R170): the diagnostic, and
`PC <- PC + 2` (R57, R70, R73). -/
def State.degrade (k : Diag) (s : State) : State :=
  (s.raise k).advance

/-- The effect of an unknown word (R57): `UnknownOpcode`, `PC <- PC + 2`, "and changes nothing else". -/
def State.skipUnknown (s : State) : State :=
  s.degrade .unknownOpcode

/-- `if addr > 0xFFF then raise AddressOverflow` (R33, R34). -/
def State.noteAddr (a : Nat) (s : State) : State :=
  { s with diag := if 0xFFF < a then s.diag ||| Diag.addressOverflow.bit else s.diag }

/-- The value `MemRead(addr, 1)` returns: `MEM[addr mod 4096]` (R33). -/
def State.readByte (s : State) (a : Nat) : Byte :=
  Memory.read s.cfg s.mem (a % memSize)

/-- `MemWrite(addr, 1, v)` (R34). -/
def State.memWrite (a : Nat) (v : Byte) (s : State) : State :=
  { s.noteAddr a with mem := Memory.write s.cfg s.mem (a % memSize) v }

/-- The diagnostics of `n` reads at `base`, `base + 1`, ... in ascending order (R33, R36). -/
def State.noteReads (base : Nat) : Nat → State → State
  | 0, s => s
  | k + 1, s => (State.noteReads base k s).noteAddr (base + k)

/-- The word `Fetch(pc)` returns: two bytes, big-endian (R35). -/
def State.fetchWord (s : State) : Word :=
  wordOfBytes (s.readByte s.pc.toNat) (s.readByte (s.pc.toNat + 1))

/-- The start of a step (R56): DIAG cleared, the fetch's two reads with their diagnostics, LAST_WORD; and the byte on the
`rnd` port. -/
def State.beginStep (rnd : Byte) (s : State) : State :=
  { State.noteReads s.pc.toNat 2 { s with diag := 0 } with lastWord := s.fetchWord, rnd := rnd }

/-- `STACK[SP] <- a ; SP <- SP + 1`, where SP < 16 (R73). -/
def State.push (a : Word) (s : State) (h : s.sp.val < 16) : State :=
  { s with stack := s.stack.set s.sp.val a h, sp := ⟨s.sp.val + 1, by omega⟩ }

/-- `SP <- SP - 1`, where SP is not 0 (R70). -/
def State.pop (s : State) : State :=
  { s with sp := ⟨s.sp.val - 1, by omega⟩ }

/-- `STACK[SP - 1]`, the slot on top where SP is not 0 (R70). -/
def State.top (s : State) : Word :=
  s.stack[s.sp.val - 1]'(by omega)

/-- `KEYS[k]`, the read `is_pressed(k)` (R18, R184). -/
def State.key (s : State) (k : BitVec 4) : Bool :=
  s.keys[k.toNat]'k.isLt

/-- The least `k` with `KEYS[k] = 1`, if any key is pressed (R155). -/
def State.firstKey (s : State) : Option Nat :=
  (List.range 16).find? fun k => s.key (BitVec.ofNat 4 k)

/-- `AUX[x]` (R16). -/
def State.auxReg (s : State) (x : RegIdx) : Byte :=
  s.aux[x.toNat]'x.isLt

/-- `AUX[x] <- b` (R16). -/
def State.setAux (x : RegIdx) (b : Byte) (s : State) : State :=
  { s with aux := s.aux.set x.toNat b x.isLt }

/-- `MemWrite(base + i, 1, V[i])` for `i` in 0 .. n-1, ascending (R115). -/
def State.storeRegs (base : Nat) : Nat → State → State
  | 0, s => s
  | k + 1, s => (State.storeRegs base k s).memWrite (base + k) (s.reg (BitVec.ofNat 4 k))

/-- `V[i] <- MemRead(base + i, 1)` for `i` in 0 .. n-1, ascending (R116). -/
def State.loadRegs (base : Nat) : Nat → State → State
  | 0, s => s
  | k + 1, s =>
    ((State.loadRegs base k s).noteAddr (base + k)).setReg (BitVec.ofNat 4 k) (s.readByte (base + k))

/-- `AUX[i] <- V[i]` for `i` in 0 .. n-1 (R117). -/
def State.storeAux : Nat → State → State
  | 0, s => s
  | k + 1, s => (State.storeAux k s).setAux (BitVec.ofNat 4 k) (s.reg (BitVec.ofNat 4 k))

/-- `V[i] <- AUX[i]` for `i` in 0 .. n-1 (R118). -/
def State.loadAux : Nat → State → State
  | 0, s => s
  | k + 1, s => (State.loadAux k s).setReg (BitVec.ofNat 4 k) (s.auxReg (BitVec.ofNat 4 k))

end Sys2Proof.Machine
end

