-- ==== Sys2Proof/Machine/Flags.lean ====
section
/-! DEFINITION. Every flag computation. The machine's only flag is VF = V[15]; a flag is written as the byte 0 or 1
(spec/10_state.md R11). -/

namespace Sys2Proof.Machine

/-- The index of VF (R11). -/
def vf : RegIdx := 15

/-- A flag as the value 0x00 or 0x01 (R11). -/
def flagByte (c : Bool) : Byte := if c then 1 else 0

/-- ADD Vx,Vy: the sum exceeds 255 (R96). -/
def carry (a b : Byte) : Bool := 255 < a.toNat + b.toNat

/-- SUB and SUBN: `a - b` needs no borrow (R97, R99). -/
def noBorrow (a b : Byte) : Bool := b.toNat ≤ a.toNat

/-- SHR: the bit shifted out, bit 0 (R98). -/
def shiftedOutRight (b : Byte) : Bool := b.getLsbD 0

/-- SHL: the bit shifted out, bit 7 (R100). -/
def shiftedOutLeft (b : Byte) : Bool := b.getLsbD 7

/-- ADD I,Vx: the unclamped sum against the threshold of `Q.addi_overflow_inclusive` (R111). -/
def indexOverflow (q : Config) (sum : Nat) : Bool :=
  if q.addiOverflowInclusive then 0xFFF ≤ sum else 0xFFF < sum

/-- `V[15] <- flag` (R11). -/
def State.setFlag (c : Bool) (s : State) : State :=
  s.setReg vf (flagByte c)

/-- The result, then the flag, then the PC: the order of R90, so that VF ends as the flag even when x = 15. -/
def State.setResultFlag (x : RegIdx) (r : Byte) (c : Bool) (s : State) : State :=
  ((s.setReg x r).setFlag c).advance

end Sys2Proof.Machine
end

