-- ==== Sys2Proof/Machine/Frame.lean ====
section
/-! DEFINITION. The display controller's operations on the cell grid (spec/43_display.md R130 to R135). -/

namespace Sys2Proof.Machine

/-- Row `r` of the buffer. -/
def Frame.row (f : Frame) (r : Nat) : BitVec 128 :=
  if h : r < 64 then f[r] else 0

/-- `FB[row][col]` (R21). -/
def Frame.cell (f : Frame) (row col : Nat) : Bool :=
  (f.row row).getLsbD col

/-- Replaces row `r`. -/
def Frame.setRow (f : Frame) (r : Nat) (b : BitVec 128) : Frame :=
  if h : r < 64 then f.set r b else f

/-- The buffer with given rows. -/
def Frame.ofRows (g : Nat → BitVec 128) : Frame :=
  ⟨⟨(List.range 64).map g⟩, by simp⟩

/-- The buffer with every cell 0. -/
def Frame.clear : Frame := Vector.replicate 64 0

/-- W for a value of EXT (R21). -/
def gridWidth (ext : Bool) : Nat := if ext then 128 else 64

/-- H for a value of EXT (R21). -/
def gridHeight (ext : Bool) : Nat := if ext then 64 else 32

/-- The columns 0 .. w-1. -/
def colMask (w : Nat) : BitVec 128 := BitVec.ofNat 128 (2 ^ w - 1)

/-- R133: every row of the grid takes the row `n` above it, the top `n` rows become 0. -/
def Frame.scrollDown (ext : Bool) (n : Nat) (f : Frame) : Frame :=
  Frame.ofRows fun r =>
    if r < gridHeight ext ∧ n ≤ r then f.row (r - n) &&& colMask (gridWidth ext) else 0

/-- Every column of the grid takes the column `k` to its left; the leftmost `k` take their cells from `fill`, a value per row. -/
def Frame.moveRight (ext : Bool) (k : Nat) (fill : Nat → BitVec 128) (f : Frame) : Frame :=
  Frame.ofRows fun r =>
    if r < gridHeight ext then
      (f.row r <<< k ||| fill r &&& ~~~(BitVec.allOnes 128 <<< k)) &&& colMask (gridWidth ext)
    else 0

/-- Every column of the grid takes the column `k` to its right; the rightmost `k` take their cells from `fill`. -/
def Frame.moveLeft (ext : Bool) (k : Nat) (fill : Nat → BitVec 128) (f : Frame) : Frame :=
  Frame.ofRows fun r =>
    if r < gridHeight ext then
      let w := colMask (gridWidth ext)
      ((f.row r &&& w) >>> k ||| fill r &&& ~~~(w >>> k)) &&& w
    else 0

/-- R134: `FB[row][col] <- if col >= d then FB[row][col - d] else 0`. With `d` negative the columns whose source `col - d` is
beyond W - 1 take `free`, since the rule states no value there (log 14). -/
def Frame.scrollRight (ext : Bool) (free : Nat → BitVec 128) (f : Frame) : Int → Frame
  | .ofNat k => f.moveRight ext k fun _ => 0
  | .negSucc k => f.moveLeft ext (k + 1) free

/-- R135: `FB[row][col] <- if col + d <= W-1 then FB[row][col + d] else 0`. With `d` negative the columns whose source
`col + d` is below 0 take `free`, since the rule states no value there (log 14). -/
def Frame.scrollLeft (ext : Bool) (free : Nat → BitVec 128) (f : Frame) : Int → Frame
  | .ofNat k => f.moveLeft ext k fun _ => 0
  | .negSucc k => f.moveRight ext (k + 1) free

/-- A sprite to draw: its first row and column, its size, and the bits of each row, the leftmost column the most
significant of the `cols` bits (R131). -/
structure Sprite where
  x0 : Nat
  y0 : Nat
  rows : Nat
  cols : Nat
  bits : Nat → Word

/-- Whether the sprite has a 1 at its row `r` and column `c`: `bits[cols-1-c]` (R131). -/
def Sprite.on (p : Sprite) (r c : Nat) : Bool :=
  (p.bits r).getLsbD (p.cols - 1 - c)

/-- The cells of a display row that the first `c` columns of sprite row `r` fall on, each column reduced modulo W. -/
def Sprite.rowMask (p : Sprite) (w r : Nat) : Nat → BitVec 128
  | 0 => 0
  | c + 1 => p.rowMask w r c ||| (if p.on r c then 1#128 <<< ((p.x0 + c) % w) else 0)

/-- XOR-blit of the first `r` rows of a sprite in ascending order, each row reduced modulo H, and whether a 1 bit fell on
a set cell (R131). One row of the sprite never meets the same cell twice, so it is drawn at once. -/
def Frame.draw (ext : Bool) (p : Sprite) (f : Frame) : Nat → Frame × Bool
  | 0 => (f, false)
  | r + 1 =>
    let g := Frame.draw ext p f r
    let py := (p.y0 + r) % gridHeight ext
    let m := p.rowMask (gridWidth ext) r p.cols
    (g.1.setRow py (g.1.row py ^^^ m), g.2 || g.1.row py &&& m != 0)

end Sys2Proof.Machine
end

