-- ==== Sys2Proof/Machine/Operands.lean ====
section
/-! DEFINITION. Every operand form: effective addresses, the operands a configuration flag or the mode selects, font
addresses, decimal digits, and the sprite of DRW. -/

namespace Sys2Proof.Machine

/-- The effective address `I + offset` over the integers (R119). -/
def State.indexAddr (s : State) (k : Nat) : Nat :=
  s.i.toNat + k

/-- The operand SHR and SHL shift (R98, R100). -/
def State.shiftOperand (s : State) (x y : RegIdx) : Byte :=
  if s.cfg.shiftIgnoresVy then s.reg x else s.reg y

/-- The register JP V0,nnn adds: 0, or `nnn[11:8]` with the jump quirk (R78). -/
def State.jumpReg (s : State) (nnn : Addr12) : RegIdx :=
  if s.cfg.jumpQuirk then nnn.extractLsb' 8 4 else 0

/-- The key slot SKP and SKNP test: `V[x] mod 16` (R150). -/
def State.keyIndex (s : State) (x : RegIdx) : BitVec 4 :=
  (s.reg x).extractLsb' 0 4

/-- The address of a small glyph, `V * 5` (R112). -/
def smallGlyphAddr (b : Byte) : Word :=
  BitVec.ofNat 16 (b.toNat * 5)

/-- The address of a large glyph, `Q.BIGFONT_BASE + V * 10` (R112, R113). -/
def bigGlyphAddr (q : Config) (b : Byte) : Word :=
  BitVec.ofNat 16 (q.bigFontBase.toNat + b.toNat * 10)

/-- The font address LD F,Vx gives: the mode selects the font (R112). -/
def State.fontAddr (s : State) (b : Byte) : Word :=
  if s.ext then bigGlyphAddr s.cfg b else smallGlyphAddr b

/-- `v div 100` (R114). -/
def hundreds (b : Byte) : Byte := BitVec.ofNat 8 (b.toNat / 100)

/-- `(v div 10) mod 10` (R114). -/
def tens (b : Byte) : Byte := BitVec.ofNat 8 (b.toNat / 10 % 10)

/-- `v mod 10` (R114). -/
def ones (b : Byte) : Byte := BitVec.ofNat 8 (b.toNat % 10)

/-- `if Q.store_load_increments_index then I <- (I + x + 1) mod 65536` (R115, R116). -/
def State.stepIndex (x : RegIdx) (s : State) : State :=
  { s with i := if s.cfg.storeLoadIncrementsIndex then s.i + x.setWidth 16 + 1 else s.i }

/-- W (R21). -/
def State.width (s : State) : Nat := gridWidth s.ext

/-- H (R21). -/
def State.height (s : State) : Nat := gridHeight s.ext

/-- `big` of R131: the 16x16 form. -/
def State.bigSprite (s : State) (n : Nibble) : Bool :=
  s.ext && n == 0 && s.cfg.extendedSpriteSupport

/-- `rows` of R131. -/
def State.spriteRows (s : State) (n : Nibble) : Nat :=
  if s.bigSprite n then 16 else n.toNat

/-- The number of bytes DRW reads from `I` on: one a row, or two a row in the 16x16 form (R131, R36). -/
def State.spriteBytes (s : State) (n : Nibble) : Nat :=
  if s.bigSprite n then 32 else n.toNat

/-- `bits` of sprite row `r` (R131): a byte, or two bytes with the one at the lower address on the left. -/
def State.spriteBits (s : State) (n : Nibble) (r : Nat) : Word :=
  if s.bigSprite n then wordOfBytes (s.readByte (s.indexAddr (2 * r))) (s.readByte (s.indexAddr (2 * r + 1)))
  else (s.readByte (s.indexAddr r)).setWidth 16

/-- The sprite DRW Vx,Vy,n draws (R131). -/
def State.sprite (s : State) (x y : RegIdx) (n : Nibble) : Sprite where
  x0 := (s.reg x).toNat
  y0 := (s.reg y).toNat
  rows := s.spriteRows n
  cols := if s.bigSprite n then 16 else 8
  bits := s.spriteBits n

end Sys2Proof.Machine
end

