-- ==== Sys2Proof/Machine/Alu.lean ====
section
/-! DEFINITION. Register load, arithmetic, logic, shift and random instructions (spec/41_alu.md). Byte arithmetic is modulo 256
(R103). -/

namespace Sys2Proof.Machine

/-- LD Vx,kk (R91). -/
def execLdImm (x : RegIdx) (kk : Byte) (s : State) : Result :=
  .next (s.setReg x kk).advance

/-- ADD Vx,kk (R92): no flag effect. -/
def execAddImm (x : RegIdx) (kk : Byte) (s : State) : Result :=
  .next (s.setReg x (s.reg x + kk)).advance

/-- LD Vx,Vy (R93). -/
def execLdReg (x y : RegIdx) (s : State) : Result :=
  .next (s.setReg x (s.reg y)).advance

/-- OR Vx,Vy (R94): VF is not written. -/
def execOrReg (x y : RegIdx) (s : State) : Result :=
  .next (s.setReg x (s.reg x ||| s.reg y)).advance

/-- AND Vx,Vy (R95): VF is not written. -/
def execAndReg (x y : RegIdx) (s : State) : Result :=
  .next (s.setReg x (s.reg x &&& s.reg y)).advance

/-- XOR Vx,Vy (R101): VF is not written. -/
def execXorReg (x y : RegIdx) (s : State) : Result :=
  .next (s.setReg x (s.reg x ^^^ s.reg y)).advance

/-- ADD Vx,Vy (R96): VF = carry. -/
def execAddReg (x y : RegIdx) (s : State) : Result :=
  .next (s.setResultFlag x (s.reg x + s.reg y) (carry (s.reg x) (s.reg y)))

/-- SUB Vx,Vy (R97): VF = no borrow. -/
def execSub (x y : RegIdx) (s : State) : Result :=
  .next (s.setResultFlag x (s.reg x - s.reg y) (noBorrow (s.reg x) (s.reg y)))

/-- SHR Vx, with Vy the operand where the configuration says so (R98): VF = the bit shifted out. -/
def execShr (x y : RegIdx) (s : State) : Result :=
  .next (s.setResultFlag x (s.shiftOperand x y >>> 1) (shiftedOutRight (s.shiftOperand x y)))

/-- SUBN Vx,Vy (R99): the reverse subtraction, VF = no borrow. -/
def execSubn (x y : RegIdx) (s : State) : Result :=
  .next (s.setResultFlag x (s.reg y - s.reg x) (noBorrow (s.reg y) (s.reg x)))

/-- SHL Vx, with Vy the operand where the configuration says so (R100): VF = the bit shifted out. -/
def execShl (x y : RegIdx) (s : State) : Result :=
  .next (s.setResultFlag x (s.shiftOperand x y <<< 1) (shiftedOutLeft (s.shiftOperand x y)))

/-- RND Vx,kk (R102): the byte on the `rnd` port of this step AND kk (log 6). -/
def execRnd (x : RegIdx) (kk : Byte) (s : State) : Result :=
  .next (s.setReg x (s.rnd &&& kk)).advance

end Sys2Proof.Machine
end

