-- ==== Sys2Proof/Machine/Control.lean ====
section
/-! DEFINITION. Control transfer instructions (spec/40_control.md). -/

namespace Sys2Proof.Machine

/-- RET (R70): with SP = 0 a no-op with `StackUnderflow`; else SP - 1 and PC = the popped slot + 2. -/
def execRet (s : State) : Result :=
  if s.sp.val = 0 then .next (s.degrade .stackUnderflow)
  else .next (s.pop.setPc (s.top + 2))

/-- JP nnn (R72). -/
def execJp (nnn : Addr12) (s : State) : Result :=
  .next (s.setPc (nnn.setWidth 16))

/-- CALL nnn (R73): with SP = 16 a no-op with `StackOverflow`; else pushes the address of this CALL (R71) and jumps. -/
def execCall (nnn : Addr12) (s : State) : Result :=
  if h : s.sp.val < 16 then .next ((s.push s.pc h).setPc (nnn.setWidth 16))
  else .next (s.degrade .stackOverflow)

/-- SE Vx,kk (R74). -/
def execSeImm (x : RegIdx) (kk : Byte) (s : State) : Result :=
  .next (s.skipIf (s.reg x == kk))

/-- SNE Vx,kk (R75). -/
def execSneImm (x : RegIdx) (kk : Byte) (s : State) : Result :=
  .next (s.skipIf (s.reg x != kk))

/-- SE Vx,Vy (R76). -/
def execSeReg (x y : RegIdx) (s : State) : Result :=
  .next (s.skipIf (s.reg x == s.reg y))

/-- SNE Vx,Vy (R77). -/
def execSneReg (x y : RegIdx) (s : State) : Result :=
  .next (s.skipIf (s.reg x != s.reg y))

/-- JP V0,nnn (R78): PC is not masked. -/
def execJpV0 (nnn : Addr12) (s : State) : Result :=
  .next (s.setPc (nnn.setWidth 16 + (s.reg (s.jumpReg nnn)).setWidth 16))

end Sys2Proof.Machine
end

