-- ==== Sys2Proof/Machine/Display.lean ====
section
/-! DEFINITION. Display instructions (spec/43_display.md). Each sets DIRTY, whether or not a cell changed. -/

namespace Sys2Proof.Machine

/-- A new picture: the buffer and "mark redraw" (R20, R132). -/
def State.showFrame (f : Frame) (s : State) : State :=
  { s with fb := f, dirty := true }

/-- LOW and HIGH: sets the mode, and "a mode toggle clears the buffer" (R132, R136, R137). -/
def State.setMode (e : Bool) (s : State) : State :=
  { s with ext := e, fb := Frame.clear, dirty := true }

/-- CLS (R130). -/
def execCls (s : State) : Result :=
  .next (s.showFrame Frame.clear).advance

/-- DRW Vx,Vy,n (R131): the sprite at I is XORed onto the grid, VF = collision. -/
def execDrw (x y : RegIdx) (n : Nibble) (s : State) : Result :=
  let p := s.sprite x y n
  let g := Frame.draw s.ext p s.fb p.rows
  .next (((State.noteReads s.i.toNat (s.spriteBytes n) s).showFrame g.1).setFlag g.2).advance

/-- SCD n (R133). -/
def execScd (n : Nibble) (s : State) : Result :=
  .next (s.showFrame (s.fb.scrollDown s.ext n.toNat)).advance

/-- SCR (R134): the configured distance; a cell that comes from outside the grid is a free value (log 14). -/
def execScr (s : State) : Result :=
  .next (s.showFrame (s.fb.scrollRight s.ext (Config.freeCells s.draws) s.cfg.scrollH)).advance

/-- SCL (R135): the configured distance; a cell that comes from outside the grid is a free value (log 14). -/
def execScl (s : State) : Result :=
  .next (s.showFrame (s.fb.scrollLeft s.ext (Config.freeCells s.draws) s.cfg.scrollH)).advance

/-- LOW (R136). -/
def execLow (s : State) : Result :=
  .next (s.setMode false).advance

/-- HIGH (R137). -/
def execHigh (s : State) : Result :=
  .next (s.setMode true).advance

end Sys2Proof.Machine
end

