-- ==== Sys2Proof/Machine/Index.lean ====
section
/-! DEFINITION. Index register, memory transfer and auxiliary register instructions (spec/42_index_memory.md). -/

namespace Sys2Proof.Machine

/-- LD I,nnn (R110). -/
def execLdI (nnn : Addr12) (s : State) : Result :=
  .next (s.setI (nnn.setWidth 16)).advance

/-- ADD I,Vx (R111): I keeps 16 bits of the sum; VF by the configured threshold, from the unclamped sum. -/
def execAddI (x : RegIdx) (s : State) : Result :=
  .next ((s.setI (s.i + (s.reg x).setWidth 16)).setFlag
    (indexOverflow s.cfg (s.i.toNat + (s.reg x).toNat))).advance

/-- LD F,Vx (R112). -/
def execLdF (x : RegIdx) (s : State) : Result :=
  .next (s.setI (s.fontAddr (s.reg x))).advance

/-- LD HF,Vx (R113): the large glyph in either mode. -/
def execLdHF (x : RegIdx) (s : State) : Result :=
  .next (s.setI (bigGlyphAddr s.cfg (s.reg x))).advance

/-- LD B,Vx (R114): the hundreds at the lowest address. -/
def execLdB (x : RegIdx) (s : State) : Result :=
  let v := s.reg x
  .next (((s.memWrite (s.indexAddr 0) (hundreds v)).memWrite (s.indexAddr 1) (tens v)).memWrite
    (s.indexAddr 2) (ones v)).advance

/-- LD [I],Vx (R115): V0..Vx to memory, then the configured step of I. -/
def execLdMemVx (x : RegIdx) (s : State) : Result :=
  .next ((s.storeRegs s.i.toNat (x.toNat + 1)).stepIndex x).advance

/-- LD Vx,[I] (R116): V0..Vx from memory, then the configured step of I. -/
def execLdVxMem (x : RegIdx) (s : State) : Result :=
  .next ((s.loadRegs s.i.toNat (x.toNat + 1)).stepIndex x).advance

/-- LD R,Vx (R117): V0..Vx to the auxiliary registers. -/
def execLdRVx (x : RegIdx) (s : State) : Result :=
  .next (s.storeAux (x.toNat + 1)).advance

/-- LD Vx,R (R118): V0..Vx from the auxiliary registers. -/
def execLdVxR (x : RegIdx) (s : State) : Result :=
  .next (s.loadAux (x.toNat + 1)).advance

end Sys2Proof.Machine
end

