-- ==== Sys2Proof/Machine/TimerKeypad.lean ====
section
/-! DEFINITION. Timer and keypad instructions (spec/44_timer_keypad.md). -/

namespace Sys2Proof.Machine

/-- SKP Vx (R150). -/
def execSkp (x : RegIdx) (s : State) : Result :=
  .next (s.skipIf (s.key (s.keyIndex x)))

/-- SKNP Vx (R151). -/
def execSknp (x : RegIdx) (s : State) : Result :=
  .next (s.skipIf (!s.key (s.keyIndex x)))

/-- LD Vx,DT (R152). -/
def execLdVxDT (x : RegIdx) (s : State) : Result :=
  .next (s.setReg x s.dt).advance

/-- LD DT,Vx (R153). -/
def execLdDTVx (x : RegIdx) (s : State) : Result :=
  .next { s with dt := s.reg x }.advance

/-- LD ST,Vx (R154). -/
def execLdSTVx (x : RegIdx) (s : State) : Result :=
  .next { s with st := s.reg x }.advance

/-- LD Vx,K (R155): with no key pressed nothing changes, PC included; else the least pressed key. -/
def execLdVxK (x : RegIdx) (s : State) : Result :=
  match s.firstKey with
  | none => .next s
  | some k => .next (s.setReg x (BitVec.ofNat 8 k)).advance

end Sys2Proof.Machine
end

