-- ==== Sys2Proof/Machine/Cpu.lean ====
section
/-! DEFINITION. The event of the CPU (spec/30_encoding.md R56). -/

namespace Sys2Proof.Machine

/-- `Step(rnd)`, the event of the CPU (R56): fetch, decode, execute; an unknown word only raises `UnknownOpcode` and
advances PC (R57). -/
def cpuStep (rnd : Byte) (s : State) : Host.Outcome State Fault Refusal :=
  match decodeWord s.fetchWord with
  | .instr i => exec i (s.beginStep rnd)
  | .unknown _ => .next (s.beginStep rnd).skipUnknown

end Sys2Proof.Machine
end

