-- ==== Sys2Proof/Machine/HostPort.lean ====
section
/-! DEFINITION. The events of the timer and of the host (spec/60_exceptions.md R180 to R192; spec/70_reset_and_hazards.md
R200), and the two pure reads. -/

namespace Sys2Proof.Machine

/-- A timer's decrement: by 1, never below 0 (R180). -/
def decay (b : Byte) : Byte :=
  if b = 0 then 0 else b - 1

/-- `TickDT` (R182). -/
def State.tickDT (s : State) : State :=
  { s with dt := decay s.dt }

/-- `TickST` (R182). -/
def State.tickST (s : State) : State :=
  { s with st := decay s.st }

/-- `now - last >= Q.TICK_PERIOD`, over the integers (R181). -/
def tickDue (q : Config) (last now : Nat) : Bool :=
  last + q.tickPeriod ≤ now

/-- The delay timer's half of `TickTimers(now)` (R181). -/
def State.timedTickDT (now : Nat) (s : State) : State :=
  if tickDue s.cfg s.lastDT now then { s.tickDT with lastDT := now } else s

/-- The sound timer's half of `TickTimers(now)` (R181). -/
def State.timedTickST (now : Nat) (s : State) : State :=
  if tickDue s.cfg s.lastST now then { s.tickST with lastST := now } else s

/-- `TickTimers(now)` (R181). -/
def State.tickTimers (now : Nat) (s : State) : State :=
  (s.timedTickDT now).timedTickST now

/-- `SetKey(k, pressed)` (R185). -/
def State.setKey (k : BitVec 4) (pressed : Bool) (s : State) : State :=
  { s with keys := s.keys.set k.toNat pressed k.isLt }

/-- `ConsumeFrame` (R187). -/
def State.consumeFrame (s : State) : State :=
  { s with dirty := false }

/-- `MEM[a + i] <- bytes[i]`, ascending (R189). -/
def Memory.writeAll (q : Config) (m : Memory) (a : Nat) : List Byte → Memory
  | [] => m
  | b :: bs => Memory.writeAll q (Memory.write q m a b) (a + 1) bs

/-- `Load(bytes, address)` (R189): `loadError` and no change at all, or memory written and `ok`. -/
def State.load (bytes : List Byte) (address : Word) (s : State) : LoadResult × State :=
  if memSize < address.toNat + bytes.length then (.loadError, s)
  else (.ok, { s with mem := Memory.writeAll s.cfg s.mem address.toNat bytes })

/-- The event `Load`, its result on the load port (log 8). -/
def State.loadEvent (bytes : List Byte) (address : Word) (s : State) : State :=
  { (s.load bytes address).2 with loadResult := some (s.load bytes address).1 }

/-- `Reset` at time `t` (R200): everything but the configuration, and the model's own schedule and draw counter (log 5, 6). -/
def State.resetEvent (t : Nat) (s : State) : State :=
  { State.resetWith s.cfg t with draws := s.draws, pending := s.pending }

/-- Whether an event is a step of the CPU. -/
def Event.isStep : Event → Bool
  | .step _ => true
  | .tickDT => false
  | .tickST => false
  | .tickTimers _ => false
  | .setKey _ _ => false
  | .consumeFrame => false
  | .load _ _ => false
  | .reset _ => false

/-- `Framebuffer()` (R186): width, height, and the cells in row-major order. -/
def State.framebuffer (s : State) : Nat × Nat × List Bool :=
  (s.width, s.height,
    (List.range (s.width * s.height)).map fun j => s.fb.cell (j / s.width) (j % s.width))

/-- What `Snapshot()` shows (R191). -/
structure Snapshot where
  pc : Word
  sp : Fin 17
  i : Word
  dt : Byte
  st : Byte
  v : Vector Byte 16
  stack : Vector Word 16
  lastWord : Word
deriving DecidableEq, Repr

/-- `Snapshot()` (R191). -/
def State.snapshot (s : State) : Snapshot :=
  { pc := s.pc, sp := s.sp, i := s.i, dt := s.dt, st := s.st, v := s.v, stack := s.stack, lastWord := s.lastWord }

end Sys2Proof.Machine
end

