-- ==== Sys2Proof/Machine/Step.lean ====
section
/-! DEFINITION. One step of the machine (spec/30_encoding.md R56, spec/00_scope.md R2), and the host's `withFetchWord`. -/

namespace Sys2Proof.Machine

/-- One event of one agent (R2): the oldest one queued; with none queued, a step of the CPU whose `rnd` is a free value
(log 5, log 6). A step of the CPU takes the next number, so that its free values are its own. -/
def step (s : State) : Host.Outcome State Fault Refusal :=
  match s.pending with
  | [] => cpuStep (Config.freeRnd s.draws) { s with draws := s.draws + 1 }
  | .step rnd :: es => cpuStep rnd { s with draws := s.draws + 1, pending := es }
  | .tickDT :: es => .next (State.tickDT { s with pending := es })
  | .tickST :: es => .next (State.tickST { s with pending := es })
  | .tickTimers now :: es => .next (State.tickTimers now { s with pending := es })
  | .setKey k p :: es => .next (State.setKey k p { s with pending := es })
  | .consumeFrame :: es => .next (State.consumeFrame { s with pending := es })
  | .load bs a :: es => .next (State.loadEvent bs a { s with pending := es })
  | .reset t :: es => .next (State.resetEvent t { s with pending := es })

/-- `s` with an instruction stored at PC and PC + 1, where the next step of the CPU fetches (R35), and with the events of
other agents that would come before that step left out (log 15). -/
def State.withFetchWord (s : State) (nbits w : Nat) : State :=
  let hi := (tableWord nbits w).extractLsb' 8 8
  let lo := (tableWord nbits w).extractLsb' 0 8
  let m := Memory.write s.cfg s.mem (s.pc.toNat % memSize) hi
  { s with
    mem := Memory.write s.cfg m ((s.pc.toNat + 1) % memSize) lo
    pending := s.pending.dropWhile fun e => !e.isStep }

end Sys2Proof.Machine
end

