-- ==== Sys2Proof/Safety.lean ====
section
/-! DEFINITION. What counts as a safe run, the machine's invariant, and the frames: what may differ between the state before
an instruction and the state after it. -/

namespace Sys2Proof.Machine

/-- A step that raised nothing: "Claims about well-behaved programs should be stated as every step has DIAG = 0"
(spec/93_implementation_defined.md U1). -/
def State.clean (s : State) : Prop := s.diag = 0

/-- The display buffer holds no set cell outside the W x H grid of the mode (R21). -/
def Frame.confined (ext : Bool) (f : Frame) : Prop :=
  ∀ row col, f.cell row col = true → row < gridHeight ext ∧ col < gridWidth ext

/-- The machine's invariant: memory is in its canonical form, with every address inside 0..4095 (R30), and the display buffer
is confined to the grid of the mode (R21, R132). SP in 0..16 (R15) holds by its type. -/
structure State.Inv (s : State) : Prop where
  memory : Memory.wf s.cfg s.mem
  display : Frame.confined s.ext s.fb

/-- Every byte of memory reads as before. -/
def SameMemory (s t : State) : Prop :=
  ∀ a, t.readByte a = s.readByte a

/-- "PC advances by 2", modulo 65536 (R7, R56). -/
def Advances (s t : State) : Prop :=
  t.pc.toNat = (s.pc.toNat + 2) % 65536

/-- Only PC may differ. -/
structure OnlyPc (s t : State) : Prop where
  rest : { t with pc := s.pc } = s
  memory : SameMemory s t

/-- Only general registers and PC may differ. -/
structure OnlyRegs (s t : State) : Prop where
  rest : { t with v := s.v, pc := s.pc } = s
  memory : SameMemory s t

/-- Only I and PC may differ. -/
structure OnlyIndex (s t : State) : Prop where
  rest : { t with i := s.i, pc := s.pc } = s
  memory : SameMemory s t

/-- Only PC and DIAG may differ: the effect of a degraded instruction. -/
structure OnlyDiag (s t : State) : Prop where
  rest : { t with diag := s.diag, pc := s.pc } = s
  memory : SameMemory s t

/-- Only the display buffer, DIRTY and PC may differ. -/
structure OnlyPicture (s t : State) : Prop where
  rest : { t with fb := s.fb, dirty := s.dirty, pc := s.pc } = s
  memory : SameMemory s t

/-- What DIAG is after accesses to the `n` addresses from `base` on, where it was `d` before: `AddressOverflow` is raised when
one of them exceeds 0xFFF, that is when the highest does (R32, R171). -/
def diagAfter (d : BitVec 4) (base n : Nat) : BitVec 4 :=
  if 0 < n ∧ 0xFFF < base + (n - 1) then d ||| 0b1000 else d

/-- The bit of the sprite of DRW at its row `r` and column `c` (R131, D15): bit 7 of a byte is its leftmost column, and a
row of the 16x16 form is two bytes, the left half at the lower address. -/
def State.spriteDot (s : State) (n : Nibble) (r c : Nat) : Bool :=
  if s.ext && n == 0 && s.cfg.extendedSpriteSupport then
    (s.readByte (s.i.toNat + 2 * r + c / 8)).getLsbD (7 - c % 8)
  else (s.readByte (s.i.toNat + r)).getLsbD (7 - c)

/-- How many bytes of memory from `I` on an instruction accesses, besides its fetch (R36, R171). -/
def State.accesses (s : State) : Instr → Nat
  | .drw _ _ n => if s.ext && n == 0 && s.cfg.extendedSpriteSupport then 32 else n.toNat
  | .ldB _ => 3
  | .ldMemVx x | .ldVxMem x => x.toNat + 1
  | .scd _ | .cls | .ret | .scr | .scl | .low | .high | .jp _ | .call _ | .seImm _ _ | .sneImm _ _ | .seReg _ _
  | .ldImm _ _ | .addImm _ _ | .ldReg _ _ | .orReg _ _ | .andReg _ _ | .xorReg _ _ | .addReg _ _ | .sub _ _ | .shr _ _
  | .subn _ _ | .shl _ _ | .sneReg _ _ | .ldI _ | .jpV0 _ | .rnd _ _ | .skp _ | .sknp _ | .ldVxDT _ | .ldVxK _
  | .ldDTVx _ | .ldSTVx _ | .addI _ | .ldF _ | .ldHF _ | .ldRVx _ | .ldVxR _ => 0

/-- What a program can observe of the machine: everything but DIRTY (R20), DIAG (R22), the timestamps (R23), LAST_WORD (R24)
and ST (R17), which "no instruction reads", and the load port. -/
def State.observable (s : State) : State :=
  { s with dirty := false, diag := 0, lastDT := 0, lastST := 0, lastWord := 0, st := 0, loadResult := none }

/-- A step that performs the event `e` of another agent has this effect on the rest of the machine: the event leaves the
queue, and the next state is `f` of what remains. -/
def Performs (e : Event) (f : State → State → Prop) : Prop :=
  ∀ s es, s.pending = e :: es → ∃ t, step s = .next t ∧ f { s with pending := es } t

/-- The state after the calls `TickTimers(t0 + 1), ..., TickTimers(t0 + k)` of a simulated clock (R183). -/
def State.clock (t0 : Nat) (s : State) : Nat → State
  | 0 => s
  | k + 1 => State.tickTimers (t0 + k + 1) (s.clock t0 k)

end Sys2Proof.Machine

namespace Sys2Proof

/-- The instructions of the display file (R138c). -/
def Instr.drawsOrScrolls : Instr → Bool
  | .scd _ | .cls | .scr | .scl | .low | .high | .drw _ _ _ => true
  | .ret | .jp _ | .call _ | .seImm _ _ | .sneImm _ _ | .seReg _ _ | .ldImm _ _ | .addImm _ _ | .ldReg _ _ | .orReg _ _
  | .andReg _ _ | .xorReg _ _ | .addReg _ _ | .sub _ _ | .shr _ _ | .subn _ _ | .shl _ _ | .sneReg _ _ | .ldI _
  | .jpV0 _ | .rnd _ _ | .skp _ | .sknp _ | .ldVxDT _ | .ldVxK _ | .ldDTVx _ | .ldSTVx _ | .addI _ | .ldF _ | .ldHF _
  | .ldB _ | .ldMemVx _ | .ldVxMem _ | .ldRVx _ | .ldVxR _ => false

/-- The seven instructions of R11's table that write VF as a side effect. -/
def Instr.writesFlag : Instr → Bool
  | .addReg _ _ | .sub _ _ | .subn _ _ | .shr _ _ | .shl _ _ | .addI _ | .drw _ _ _ => true
  | .scd _ | .cls | .ret | .scr | .scl | .low | .high | .jp _ | .call _ | .seImm _ _ | .sneImm _ _ | .seReg _ _
  | .ldImm _ _ | .addImm _ _ | .ldReg _ _ | .orReg _ _ | .andReg _ _ | .xorReg _ _ | .sneReg _ _ | .ldI _ | .jpV0 _
  | .rnd _ _ | .skp _ | .sknp _ | .ldVxDT _ | .ldVxK _ | .ldDTVx _ | .ldSTVx _ | .ldF _ | .ldHF _ | .ldB _ | .ldMemVx _
  | .ldVxMem _ | .ldRVx _ | .ldVxR _ => false

/-- The general registers an instruction names as its destination. -/
def Instr.isDest (r : RegIdx) : Instr → Bool
  | .ldImm x _ | .addImm x _ | .ldReg x _ | .orReg x _ | .andReg x _ | .xorReg x _ | .addReg x _ | .sub x _ | .shr x _
  | .subn x _ | .shl x _ | .rnd x _ | .ldVxDT x | .ldVxK x => r == x
  | .ldVxMem x | .ldVxR x => r.toNat ≤ x.toNat
  | .scd _ | .cls | .ret | .scr | .scl | .low | .high | .jp _ | .call _ | .seImm _ _ | .sneImm _ _ | .seReg _ _
  | .sneReg _ _ | .ldI _ | .jpV0 _ | .drw _ _ _ | .skp _ | .sknp _ | .ldDTVx _ | .ldSTVx _ | .addI _ | .ldF _ | .ldHF _
  | .ldB _ | .ldMemVx _ | .ldRVx _ => false

end Sys2Proof
end

