-- ==== Sys2Proof/Certificates/Slice0/Obligations.lean ====
section
/-! DEFINITION. The statements for the provers, from the numbered rules of spec/. A statement of basis 'derived' rests, for the
clauses its docstring names, on the spec's own decisions (spec/92_eei_decisions.md) or on the model's log. -/

open Sys2Proof Sys2Proof.Machine

/-- Words written out from the formats and the opcode map decode to the instruction each stands for, one or more of every format
and family with sub-operations. The numbers other than 6xkk and 8xy4 are the spec's adopted numbering (D1, log 4). [derived:
30_encoding.md section 3 (opcode map), 95_test_vectors.md table 2.1] -/
def Obligations.SampleWordsDecode : Prop :=
  decodeWord 0x00C5 = .instr (.scd 5) ∧ decodeWord 0x00E0 = .instr .cls ∧ decodeWord 0x00EE = .instr .ret ∧
  decodeWord 0x1ABC = .instr (.jp 0xABC) ∧ decodeWord 0x3A7F = .instr (.seImm 0xA 0x7F) ∧
  decodeWord 0x512F = .instr (.seReg 1 2) ∧ decodeWord 0x6005 = .instr (.ldImm 0 5) ∧
  decodeWord 0x8014 = .instr (.addReg 0 1) ∧ decodeWord 0x8ABE = .instr (.shl 0xA 0xB) ∧
  decodeWord 0x9125 = .instr (.sneReg 1 2) ∧ decodeWord 0xA300 = .instr (.ldI 0x300) ∧
  decodeWord 0xD3A7 = .instr (.drw 3 0xA 7) ∧ decodeWord 0xE59E = .instr (.skp 5) ∧
  decodeWord 0xF41E = .instr (.addI 4) ∧ decodeWord 0xF265 = .instr (.ldVxMem 2)

/-- For every instruction i of the 42, with every operand at every value its field admits: decode (encode i) = i. No bit of an
encoding is dropped. The opcode numbers are the spec's adopted numbering (D1, log 4). [derived: 30_encoding.md sections 1 to
3] -/
def Obligations.DecodeOfEncodeIsTheInstruction : Prop :=
  ∀ i : Instr, decodeWord (encode i) = .instr i

/-- If a word decodes to i, then encode i is that word, with the low nibble cleared in families 5 and 9 only: those four bits
are the only ones a decoder ignores (D13, D14, log 4). [derived: 30_encoding.md section 5 (ignored bits),
92_eei_decisions.md D13, D14] -/
def Obligations.EncodeOfDecodeIsTheWord : Prop :=
  ∀ (w : Word) (i : Instr), decodeWord w = .instr i →
    encode i = if w.toNat / 0x1000 = 5 ∨ w.toNat / 0x1000 = 9 then w &&& 0xFFF0 else w

/-- For every word: if it decodes to an instruction, the row of that instruction is in the opcode map, the word fits it, and it
fits no other row; if it decodes to unknown, it fits no row. The rows' numbers are the spec's adopted numbering (D1, log 4).
[derived: 30_encoding.md section 3 (opcode map, Decode)] -/
def Obligations.DecodePicksTheOneFittingRow : Prop :=
  ∀ w : Word,
    (∀ i, decodeWord w = .instr i →
      opcodeRow i ∈ opcodeMap ∧ (opcodeRow i).fits w = true ∧
        ∀ r ∈ opcodeMap, r.fits w = true → r = opcodeRow i) ∧
    (∀ why, decodeWord w = .unknown why → ∀ r ∈ opcodeMap, r.fits w = false)

/-- A word decodes to unknown if and only if it is in one of the four rows of the spec's table of unknown words (family 0, 8, E,
F). The exactness of the secondary dispatch is the spec's decision D14 (log 4). [derived: 30_encoding.md section 5 (unknown
opcodes), 92_eei_decisions.md D14] -/
def Obligations.UnknownWordsAreExactlyTheFourRows : Prop :=
  ∀ w : Word, (∃ why, decodeWord w = .unknown why) ↔ unknownWord w = true

/-- For every configuration Q and every time: all registers, I, SP, the stack, the auxiliary registers, the timers, the keys,
the mode and dirty flags, the display (64x32), DIAG and LAST_WORD are 0, PC is Q's load address, both timestamps are the
time of the reset, the small font stands at 0x000..0x04F, the large font from Q.BIGFONT_BASE on, every other byte is 0, and
Q is unchanged. Nothing is said of a cell where the two fonts overlap or of a large font byte beyond 0xFFF (log 13).
State.reset is that state for the default configuration at time 0 (log 2, log 9): PC is 0x200, the small font is the
customary table (G12), memory from 0x0F0 on is 0. That memory, fonts, AUX, the timestamps, LAST_WORD and DIRTY are part of
reset is the spec's own decision (D21, D22, D26, D28, D32, D39, log 16). [derived: 10_state.md section 7,
70_reset_and_hazards.md section 1, 92_eei_decisions.md D21, D22, D26, D28, D32, D39] -/
def Obligations.ResetHoldsTheResetTable : Prop :=
  (∀ (q : Config) (time : Nat), let s := State.resetWith q time
    let big := fun i => q.bigFontBase.toNat + i
    (∀ x, s.reg x = 0) ∧ (∀ x, s.auxReg x = 0) ∧ (∀ k, s.key k = false) ∧ s.i = 0 ∧
    s.pc.toNat = q.loadAddress.toNat ∧ s.sp = 0 ∧ s.stack = Vector.replicate 16 0 ∧ s.dt = 0 ∧ s.st = 0 ∧
    s.lastDT = time ∧ s.lastST = time ∧ s.ext = false ∧ s.dirty = false ∧ (∀ row col, s.fb.cell row col = false) ∧
    s.width = 64 ∧ s.height = 32 ∧ s.diag = 0 ∧ s.lastWord = 0 ∧ s.cfg = q ∧
    (∀ a (h : a < 80), (∀ i < 160, big i % 4096 ≠ a) → s.readByte a = q.fontSmall[a]) ∧
    (∀ i (h : i < 160), 80 ≤ big i → big i < 4096 → s.readByte (big i) = q.fontLarge[i]) ∧
    (∀ a, 80 ≤ a → a < 4096 → (∀ i < 160, big i % 4096 ≠ a) → s.readByte a = 0)) ∧
  State.reset = State.resetWith defaultConfig 0 ∧ State.reset.pc = 0x200 ∧
  (∀ a (h : a < 80), State.reset.readByte a = smallFont[a]) ∧
  (∀ a, 0x0F0 ≤ a → a < 4096 → State.reset.readByte a = 0)

/-- The reset state's memory is in canonical form with every address inside 0..4095, and its display buffer holds no cell
outside the grid. The canonical form is the model's own (log 12), the storage of the grid too (log 10). [derived:
10_state.md section 4 (FB), section 6, 20_memory.md section 1] -/
def Obligations.ResetMeetsTheInvariant : Prop :=
  State.reset.Inv

/-- If memory is in canonical form with every address inside 0..4095 and the display buffer is confined to the W x H grid of the
mode, and a step (an instruction, an unknown word, a timer tick or a host event) answers a next state, then the same holds
of the next state. No instruction reads or writes outside 0..4095, and a mode change never leaves a picture of the wrong
size. The canonical form is the model's own (log 12), the storage of the grid too (log 10). [derived: 20_memory.md sections
1 and 2, 10_state.md section 4 (FB), 43_display.md section 1] -/
def Obligations.EveryStepKeepsTheInvariant : Prop :=
  ∀ s t : State, s.Inv → step s = .next t → t.Inv

/-- From every state, whatever the memory, the registers, the configuration and the queued events, step answers a next state: no
fault, no refusal. Which agent moves is the model's own choice of data (log 5). [derived: 30_encoding.md section 4 (a step
always terminates, is total and never refuses)] -/
def Obligations.EveryStepAnswersANextState : Prop :=
  ∀ s : State, ∃ t, step s = .next t

/-- With no event queued, or with a CPU step queued first, the step clears DIAG, fetches the big-endian word at PC and PC + 1
(AddressOverflow when PC + 1 exceeds 0xFFF), records it in LAST_WORD, and is exec of the decoded instruction in that state;
an unknown word raises UnknownOpcode and advances PC by 2 and nothing else. The rnd port holds the queued byte, or a free
value, and the step takes the next number of the model's own counter (log 6); the queue is the model's own (log 5); masking
is the spec's D6, advancing over unknown words its D3. [derived: 30_encoding.md sections 4 and 5, 20_memory.md section 2
(Fetch), 92_eei_decisions.md D3, D6] -/
def Obligations.StepRunsTheDecodedInstruction : Prop :=
  (∀ s : State, s.pending = [] →
      step s = cpuStep (Config.freeRnd s.draws) { s with draws := s.draws + 1 }) ∧
  (∀ (s : State) (rnd : Byte) (es : List Event), s.pending = .step rnd :: es →
      step s = cpuStep rnd { s with draws := s.draws + 1, pending := es }) ∧
  (∀ (s : State) (rnd : Byte),
    let w : Word := s.readByte s.pc.toNat ++ s.readByte (s.pc.toNat + 1)
    let b : State := { s with diag := if 0xFFF < s.pc.toNat + 1 then 0b1000 else 0, lastWord := w, rnd := rnd }
    (∀ i, decodeWord w = .instr i → cpuStep rnd s = exec i b) ∧
    (∀ why, decodeWord w = .unknown why →
      cpuStep rnd s = .next { b with diag := b.diag ||| 0b0001, pc := s.pc + 2 }))

/-- After a CPU step: bit 0 is set iff the word was unknown; bit 1 iff it was RET with SP = 0; bit 2 iff it was CALL with SP =
16; bit 3 iff the fetch or a data access of the instruction had an unmasked address above 0xFFF. The first three are
mutually exclusive. Bit positions and the stack guards are the spec's decisions (D29, D4, D5, D6, log 16). [derived:
60_exceptions.md sections 1 and 3, 92_eei_decisions.md D4, D5, D6, D29] -/
def Obligations.DiagnosticsAreRaisedExactlyForTheirCauses : Prop :=
  ∀ (rnd : Byte) (s t : State), cpuStep rnd s = .next t →
    (t.diag.getLsbD 0 = true ↔ ∃ why, decodeWord s.fetchWord = .unknown why) ∧
    (t.diag.getLsbD 1 = true ↔ decodeWord s.fetchWord = .instr .ret ∧ s.sp.val = 0) ∧
    (t.diag.getLsbD 2 = true ↔ (∃ nnn, decodeWord s.fetchWord = .instr (.call nnn)) ∧ s.sp.val = 16) ∧
    (t.diag.getLsbD 3 = true ↔ 0xFFF < s.pc.toNat + 1 ∨
      ∃ i, decodeWord s.fetchWord = .instr i ∧ 0 < s.accesses i ∧ 0xFFF < s.i.toNat + (s.accesses i - 1))

/-- The configuration record Q is fixed from construction on and never changed by any event, including Reset. That the model
carries Q in its state is its own choice (log 1). [derived: 00_scope.md section 4 (configuration parameters)] -/
def Obligations.NoStepChangesTheConfiguration : Prop :=
  ∀ s t : State, step s = .next t → t.cfg = s.cfg

/-- An instruction outside the display file leaves the buffer, the mode and the dirty flag as they were; an instruction of the
display file leaves DIRTY set, so that no instruction clears it. That DIRTY is set on every execution is the spec's decision
D32 (log 16). [derived: 43_display.md sections 1 and 3, 92_eei_decisions.md D32] -/
def Obligations.OnlyDisplayInstructionsWriteTheDisplay : Prop :=
  ∀ (i : Instr) (s t : State), exec i s = .next t →
    (i.drawsOrScrolls = false → t.fb = s.fb ∧ t.ext = s.ext ∧ t.dirty = s.dirty) ∧
    (i.drawsOrScrolls = true → t.dirty = true)

/-- If an instruction changes EXT it is LOW or HIGH, and after either of them every cell of the buffer is 0. That they clear it
even when the mode does not change is the spec's decision D19 (log 16). [derived: 43_display.md section 1 (guarantee of the
display controller), 43_display.md section 2 (LOW, HIGH), 92_eei_decisions.md D19] -/
def Obligations.ModeChangesOnlyByLowAndHighAndClears : Prop :=
  ∀ (i : Instr) (s t : State), exec i s = .next t →
    (t.ext ≠ s.ext → i = .low ∨ i = .high) ∧
    ((i = .low ∨ i = .high) → ∀ row col, t.fb.cell row col = false)

/-- If an instruction changes V[r], then r is one of the registers it names as destination, or r is 15 and it is one of the
seven instructions that write VF as a side effect; in those seven VF ends as 0 or 1. That LD, OR, AND and XOR leave VF alone
is the spec's decision D12 (log 16). [derived: 10_state.md section 1 (table of flag writers), 92_eei_decisions.md D11, D12] -/
def Obligations.RegistersChangeOnlyAsDestinationOrFlag : Prop :=
  ∀ (i : Instr) (s t : State), exec i s = .next t →
    (∀ r, t.reg r ≠ s.reg r → i.isDest r = true ∨ (r = 15 ∧ i.writesFlag = true)) ∧
    (i.writesFlag = true → t.reg 15 = 0 ∨ t.reg 15 = 1)

/-- Among instructions: the stack slots change only in CALL, the stack pointer only in CALL and RET, the auxiliary registers
only in LD R,Vx, the delay timer only in LD DT,Vx, the sound timer only in LD ST,Vx. [derived: 10_state.md sections 3 and 4] -/
def Obligations.StackAuxAndTimersHaveOneWriterEach : Prop :=
  ∀ (i : Instr) (s t : State), exec i s = .next t →
    (t.stack ≠ s.stack → ∃ nnn, i = .call nnn) ∧
    (t.sp ≠ s.sp → i = .ret ∨ ∃ nnn, i = .call nnn) ∧
    (t.aux ≠ s.aux → ∃ x, i = .ldRVx x) ∧
    (t.dt ≠ s.dt → ∃ x, i = .ldDTVx x) ∧
    (t.st ≠ s.st → ∃ x, i = .ldSTVx x)

/-- KEYS is written by no instruction, the timestamps belong to the timer agent, LAST_WORD to the fetch, and an instruction
neither consumes nor adds an event. The rnd port, the draw counter, the queue and the load port are the model's own fields
(log 5, 6, 8). [derived: 10_state.md sections 4 and 5, 92_eei_decisions.md D24] -/
def Obligations.InstructionsLeaveTheOutsideAlone : Prop :=
  ∀ (i : Instr) (s t : State), exec i s = .next t →
    t.keys = s.keys ∧ t.lastDT = s.lastDT ∧ t.lastST = s.lastST ∧ t.lastWord = s.lastWord ∧ t.cfg = s.cfg ∧
    t.rnd = s.rnd ∧ t.draws = s.draws ∧ t.pending = s.pending ∧ t.loadResult = s.loadResult

/-- An instruction other than the BCD store and the register dump leaves every byte of memory as it was. [derived: 20_memory.md
section 1 (which instructions reach memory)] -/
def Obligations.OnlyTheTwoStoresWriteMemory : Prop :=
  ∀ (i : Instr) (s t : State), exec i s = .next t →
    (∀ x, i ≠ .ldB x ∧ i ≠ .ldMemVx x) → SameMemory s t

/-- If a step of any agent leaves DT larger than before, it was a CPU step whose word decodes to LD DT,Vx; the same for ST and
LD ST,Vx. Ticks, host events and Reset never raise a timer. [derived: 10_state.md section 4 (DT, ST), 60_exceptions.md
section 6] -/
def Obligations.TimersRiseOnlyByTheirLoads : Prop :=
  ∀ s t : State, step s = .next t →
    (s.dt.toNat < t.dt.toNat → (s.pending = [] ∨ ∃ rnd es, s.pending = .step rnd :: es) ∧
      ∃ x, decodeWord s.fetchWord = .instr (.ldDTVx x)) ∧
    (s.st.toNat < t.st.toNat → (s.pending = [] ∨ ∃ rnd es, s.pending = .step rnd :: es) ∧
      ∃ x, decodeWord s.fetchWord = .instr (.ldSTVx x))

/-- If two states agree in everything but DIRTY, DIAG, ST, LAST_WORD, the timestamps and the load port, then a CPU step with the
same rnd leads to two states that again agree in everything but those. [derived: 10_state.md sections 4 and 5,
70_reset_and_hazards.md section 3] -/
def Obligations.ProgramsCannotObserveDirtyDiagOrSound : Prop :=
  ∀ (rnd : Byte) (s s' : State), s.observable = s'.observable →
    ∃ t t', cpuStep rnd s = .next t ∧ cpuStep rnd s' = .next t' ∧ t.observable = t'.observable

/-- Two CPU steps from one state with different bytes on the rnd port answer states that differ at most in that port, unless the
instruction is RND. [derived: 30_encoding.md section 4, 00_scope.md section 2] -/
def Obligations.OnlyRndReadsTheRandomByte : Prop :=
  ∀ (r r' : Byte) (s : State), (∀ x kk, decodeWord s.fetchWord ≠ .instr (.rnd x kk)) →
    ∃ t t', cpuStep r s = .next t ∧ cpuStep r' s = .next t' ∧ { t with rnd := r' } = t'

/-- After MemWrite(a, v), a read at b gives v if a and b are the same modulo 4096 and what it gave before otherwise;
AddressOverflow is raised iff a exceeds 0xFFF; nothing else changes. Masking is the spec's decision D6 (log 16). [derived:
20_memory.md section 2, 92_eei_decisions.md D6] -/
def Obligations.WriteChangesExactlyOneCell : Prop :=
  ∀ (s : State) (a b : Nat) (v : Byte),
    (s.memWrite a v).readByte b = (if b % 4096 = a % 4096 then v else s.readByte b) ∧
    (s.memWrite a v).diag = (if 0xFFF < a then s.diag ||| 0b1000 else s.diag) ∧
    { s.memWrite a v with mem := s.mem, diag := s.diag } = s

/-- JP nnn completes in every state; PC becomes nnn, zero-extended; no flag, no diagnostic, nothing else changes. [stated: R72] -/
def Obligations.JumpLoadsTheTarget : Prop :=
  ∀ (nnn : Addr12) (s : State), ∃ t, exec (.jp nnn) s = .next t ∧ t.pc.toNat = nnn.toNat ∧ OnlyPc s t

/-- Both complete in every state; PC becomes PC + 4 when the comparison holds and PC + 2 otherwise, modulo 65536; nothing else
changes. [stated: R74, R75] -/
def Obligations.SkipsOnConstantCompare : Prop :=
  ∀ (x : RegIdx) (kk : Byte) (s : State),
    (∃ t, exec (.seImm x kk) s = .next t ∧ OnlyPc s t ∧
      t.pc.toNat = (s.pc.toNat + if (s.reg x).toNat = kk.toNat then 4 else 2) % 65536) ∧
    (∃ t, exec (.sneImm x kk) s = .next t ∧ OnlyPc s t ∧
      t.pc.toNat = (s.pc.toNat + if (s.reg x).toNat = kk.toNat then 2 else 4) % 65536)

/-- Both complete in every state, also with x = y; PC becomes PC + 4 when the comparison holds and PC + 2 otherwise, modulo
65536; nothing else changes. [derived: 40_control.md section 2 (SE Vx,Vy; SNE Vx,Vy)] -/
def Obligations.SkipsOnRegisterCompare : Prop :=
  ∀ (x y : RegIdx) (s : State),
    (∃ t, exec (.seReg x y) s = .next t ∧ OnlyPc s t ∧
      t.pc.toNat = (s.pc.toNat + if (s.reg x).toNat = (s.reg y).toNat then 4 else 2) % 65536) ∧
    (∃ t, exec (.sneReg x y) s = .next t ∧ OnlyPc s t ∧
      t.pc.toNat = (s.pc.toNat + if (s.reg x).toNat = (s.reg y).toNat then 2 else 4) % 65536)

/-- JP V0,nnn completes in every state; PC is nnn + V[0], or nnn + V[nnn div 256] with the jump quirk, not masked to 12 bits;
nothing else changes. The quirk's meaning is the spec's decision D10, not masking its D7 (log 16). [derived: 40_control.md
section 2 (JP V0,nnn), 92_eei_decisions.md D7, D10] -/
def Obligations.IndexedJumpAddsTheSelectedRegister : Prop :=
  ∀ (nnn : Addr12) (s : State), ∃ t, exec (.jpV0 nnn) s = .next t ∧ OnlyPc s t ∧
    t.pc.toNat = nnn.toNat +
      (s.reg (if s.cfg.jumpQuirk then BitVec.ofNat 4 (nnn.toNat / 256) else 0)).toNat

/-- With SP below 16: STACK[SP] becomes the address of the CALL, SP grows by 1, PC becomes nnn; the other slots and everything
else are unchanged, no diagnostic. The stack order is the spec's decision D2 (log 16). [derived: 40_control.md sections 1
and 2 (CALL nnn), 92_eei_decisions.md D2] -/
def Obligations.CallPushesItsOwnAddressAndJumps : Prop :=
  ∀ (nnn : Addr12) (s : State), s.sp.val < 16 → ∃ t, exec (.call nnn) s = .next t ∧
    t.pc.toNat = nnn.toNat ∧ t.sp.val = s.sp.val + 1 ∧
    (∀ k (h : k < 16), t.stack[k] = if k = s.sp.val then s.pc else s.stack[k]) ∧
    { t with pc := s.pc, sp := s.sp, stack := s.stack } = s ∧ SameMemory s t

/-- With SP not 0: SP shrinks by 1, PC becomes the slot at the new SP plus 2 modulo 65536; the slot keeps its content and
nothing else changes. The stack order is the spec's decision D2 (log 16). [derived: 40_control.md sections 1 and 2 (RET),
92_eei_decisions.md D2] -/
def Obligations.RetPopsAndAddsTwo : Prop :=
  ∀ s : State, s.sp.val ≠ 0 → ∃ t, exec .ret s = .next t ∧
    t.sp.val + 1 = s.sp.val ∧
    (∀ h : t.sp.val < 16, t.pc.toNat = ((s.stack[t.sp.val]).toNat + 2) % 65536) ∧
    { t with pc := s.pc, sp := s.sp } = s ∧ SameMemory s t

/-- RET with SP = 0 raises StackUnderflow, CALL with SP = 16 raises StackOverflow; PC advances by 2 and nothing else changes:
nothing is pushed, popped or jumped to. The form of the guards is the spec's decision D4, D5 (log 16). [derived:
40_control.md section 2 (RET, CALL nnn), 92_eei_decisions.md D4, D5] -/
def Obligations.StackGuardsDegradeToNoOps : Prop :=
  (∀ s : State, s.sp.val = 0 → ∃ t, exec .ret s = .next t ∧ t.diag = s.diag ||| 0b0010 ∧ Advances s t ∧ OnlyDiag s t) ∧
  (∀ (nnn : Addr12) (s : State), s.sp.val = 16 →
    ∃ t, exec (.call nnn) s = .next t ∧ t.diag = s.diag ||| 0b0100 ∧ Advances s t ∧ OnlyDiag s t)

/-- With a free slot, CALL nnn and then RET lead to PC = the address of the CALL plus 2 and the old SP; the stack slot keeps the
address of the CALL, and every other slot and every other part of the state is as before the CALL. That RET leaves the slot
is part of the stack order, the spec's decision D2 (log 16). [derived: 40_control.md sections 1 and 2 (RET, CALL nnn),
95_test_vectors.md S8, 92_eei_decisions.md D2] -/
def Obligations.RetAfterCallReturnsBehindTheCall : Prop :=
  ∀ (nnn : Addr12) (s : State), s.sp.val < 16 →
    ∃ t u, exec (.call nnn) s = .next t ∧ exec .ret t = .next u ∧ Advances s u ∧
      (∀ k (h : k < 16), u.stack[k] = if k = s.sp.val then s.pc else s.stack[k]) ∧
      { u with pc := s.pc, stack := s.stack } = s

/-- Both complete in every state and advance PC; V[x] becomes kk, or (V[x] + kk) mod 256; every other register, VF included
unless x = 15, and everything else is unchanged. [stated: R91, R92] -/
def Obligations.ImmediateLoadAndAdd : Prop :=
  ∀ (x : RegIdx) (kk : Byte) (s : State),
    (∃ t, exec (.ldImm x kk) s = .next t ∧ Advances s t ∧ OnlyRegs s t ∧
      ∀ r, (t.reg r).toNat = if r = x then kk.toNat else (s.reg r).toNat) ∧
    (∃ t, exec (.addImm x kk) s = .next t ∧ Advances s t ∧ OnlyRegs s t ∧
      ∀ r, (t.reg r).toNat = if r = x then ((s.reg x).toNat + kk.toNat) % 256 else (s.reg r).toNat)

/-- All four complete in every state and advance PC; bit j of V[x] is the copy, or, and, xor of bit j of the old operands; every
other register, VF included unless x = 15, and everything else is unchanged. That they leave VF alone is the spec's decision
D12 (log 16). [derived: 41_alu.md section 3 (LD, OR, AND, XOR), 92_eei_decisions.md D12] -/
def Obligations.RegisterCopyAndLogic : Prop :=
  ∀ (x y : RegIdx) (s : State),
    (∃ t, exec (.ldReg x y) s = .next t ∧ Advances s t ∧ OnlyRegs s t ∧
      ∀ r j, (t.reg r).getLsbD j = if r = x then (s.reg y).getLsbD j else (s.reg r).getLsbD j) ∧
    (∃ t, exec (.orReg x y) s = .next t ∧ Advances s t ∧ OnlyRegs s t ∧
      ∀ r j, (t.reg r).getLsbD j =
        if r = x then (s.reg x).getLsbD j || (s.reg y).getLsbD j else (s.reg r).getLsbD j) ∧
    (∃ t, exec (.andReg x y) s = .next t ∧ Advances s t ∧ OnlyRegs s t ∧
      ∀ r j, (t.reg r).getLsbD j =
        if r = x then (s.reg x).getLsbD j && (s.reg y).getLsbD j else (s.reg r).getLsbD j) ∧
    (∃ t, exec (.xorReg x y) s = .next t ∧ Advances s t ∧ OnlyRegs s t ∧
      ∀ r j, (t.reg r).getLsbD j =
        if r = x then ((s.reg x).getLsbD j ^^ (s.reg y).getLsbD j) else (s.reg r).getLsbD j)

/-- All three complete in every state and advance PC; VF is 1 iff V[x] + V[y] > 255 (ADD), V[x] >= V[y] (SUB), V[y] >= V[x]
(SUBN), of the old values, for every x and y; V[x] is the result modulo 256 where x is not 15; nothing else changes. That VF
ends as the flag when x = 15 is the spec's decision D11, SUBN's result its general knowledge G10 (log 16). [derived:
41_alu.md sections 1 and 3 (ADD, SUB, SUBN), 92_eei_decisions.md D11] -/
def Obligations.AddAndSubtractSetVF : Prop :=
  ∀ (x y : RegIdx) (s : State),
    (∃ t, exec (.addReg x y) s = .next t ∧ Advances s t ∧ OnlyRegs s t ∧
      ∀ r, (t.reg r).toNat =
        if r = 15 then (if 255 < (s.reg x).toNat + (s.reg y).toNat then 1 else 0)
        else if r = x then ((s.reg x).toNat + (s.reg y).toNat) % 256 else (s.reg r).toNat) ∧
    (∃ t, exec (.sub x y) s = .next t ∧ Advances s t ∧ OnlyRegs s t ∧
      ∀ r, (t.reg r).toNat =
        if r = 15 then (if (s.reg y).toNat ≤ (s.reg x).toNat then 1 else 0)
        else if r = x then ((s.reg x).toNat + 256 - (s.reg y).toNat) % 256 else (s.reg r).toNat) ∧
    (∃ t, exec (.subn x y) s = .next t ∧ Advances s t ∧ OnlyRegs s t ∧
      ∀ r, (t.reg r).toNat =
        if r = 15 then (if (s.reg x).toNat ≤ (s.reg y).toNat then 1 else 0)
        else if r = x then ((s.reg y).toNat + 256 - (s.reg x).toNat) % 256 else (s.reg r).toNat)

/-- Both complete in every state and advance PC; the operand is the old V[x], or V[y] when shift_ignores_vy is off; V[x] becomes
it div 2, or it times 2 modulo 256, where x is not 15; VF is the bit shifted out; nothing else changes. The alternative
operand is the spec's decision D10, the write order its D11 (log 16). [derived: 41_alu.md section 3 (SHR, SHL),
92_eei_decisions.md D10, D11] -/
def Obligations.ShiftsMoveOneBitIntoVF : Prop :=
  ∀ (x y : RegIdx) (s : State),
    let a := (s.reg (if s.cfg.shiftIgnoresVy then x else y)).toNat
    (∃ t, exec (.shr x y) s = .next t ∧ Advances s t ∧ OnlyRegs s t ∧
      ∀ r, (t.reg r).toNat =
        if r = 15 then (if a % 2 = 1 then 1 else 0)
        else if r = x then a / 2 else (s.reg r).toNat) ∧
    (∃ t, exec (.shl x y) s = .next t ∧ Advances s t ∧ OnlyRegs s t ∧
      ∀ r, (t.reg r).toNat =
        if r = 15 then (if 128 ≤ a then 1 else 0)
        else if r = x then a * 2 % 256 else (s.reg r).toNat)

/-- RND completes in every state and advances PC; V[x] becomes the byte on the rnd port AND kk, for every value of the port (a
free value of the model, log 6); no flag, nothing else changes. [derived: 41_alu.md section 4] -/
def Obligations.RandomByteIsMasked : Prop :=
  ∀ (x : RegIdx) (kk : Byte) (s : State), ∃ t, exec (.rnd x kk) s = .next t ∧ Advances s t ∧ OnlyRegs s t ∧
    ∀ r j, (t.reg r).getLsbD j = if r = x then s.rnd.getLsbD j && kk.getLsbD j else (s.reg r).getLsbD j

/-- If a CPU step with the byte r is queued first and the word at PC decodes to RND Vx,kk, the step leaves r AND kk in V[x],
consumes the event and advances PC. The queue is the model's own (log 5, log 6). [derived: 41_alu.md section 4, 00_scope.md
section 2] -/
def Obligations.InjectedRandomByteReachesTheRegister : Prop :=
  ∀ (x : RegIdx) (kk r : Byte) (s : State) (es : List Event), s.pending = .step r :: es →
    decodeWord s.fetchWord = .instr (.rnd x kk) →
    ∃ t, step s = .next t ∧ t.reg x = r &&& kk ∧ t.pending = es ∧ Advances s t

/-- LD I,nnn completes in every state and advances PC; I becomes nnn, zero-extended; no flag, no diagnostic, nothing else
changes. [stated: R110] -/
def Obligations.LoadIndexImmediate : Prop :=
  ∀ (nnn : Addr12) (s : State), ∃ t, exec (.ldI nnn) s = .next t ∧ t.i.toNat = nnn.toNat ∧ Advances s t ∧
    OnlyIndex s t

/-- ADD I,Vx completes in every state and advances PC; I is (I + old V[x]) mod 65536; VF is 1 iff the unclamped sum exceeds
0xFFF, or reaches it when addi_overflow_inclusive is set; the other registers and everything else are unchanged, and no
diagnostic is raised. The threshold and the 16-bit wrap are the spec's decisions D8, D9 (log 16). [derived:
42_index_memory.md section 2 (ADD I,Vx), 92_eei_decisions.md D8, D9] -/
def Obligations.AddToIndexWrapsAndFlags : Prop :=
  ∀ (x : RegIdx) (s : State), ∃ t, exec (.addI x) s = .next t ∧ Advances s t ∧
    t.i.toNat = (s.i.toNat + (s.reg x).toNat) % 65536 ∧
    t.reg 15 = (if (if s.cfg.addiOverflowInclusive then 0xFFF else 0x1000) ≤ s.i.toNat + (s.reg x).toNat
      then 1 else 0) ∧
    (∀ r, r ≠ 15 → t.reg r = s.reg r) ∧
    { t with v := s.v, i := s.i, pc := s.pc } = s ∧ SameMemory s t

/-- Both complete in every state and advance PC; LD F,Vx sets I to V[x]*5 in standard mode and BIGFONT_BASE + V[x]*10 in
extended mode, LD HF,Vx always to the latter; V[x] is used in full and nothing else changes. That Fx29 follows the mode, and
Fx30, are the spec's decision D20 (log 16). [derived: 42_index_memory.md section 2 (LD F,Vx; LD HF,Vx), 92_eei_decisions.md
D20] -/
def Obligations.FontAddressesFollowTheMode : Prop :=
  ∀ (x : RegIdx) (s : State),
    (∃ t, exec (.ldF x) s = .next t ∧ Advances s t ∧ OnlyIndex s t ∧
      t.i.toNat = if s.ext then s.cfg.bigFontBase.toNat + (s.reg x).toNat * 10 else (s.reg x).toNat * 5) ∧
    (∃ t, exec (.ldHF x) s = .next t ∧ Advances s t ∧ OnlyIndex s t ∧
      t.i.toNat = s.cfg.bigFontBase.toNat + (s.reg x).toNat * 10)

/-- LD B,Vx completes in every state and advances PC; the bytes at I, I+1 and I+2 are the hundreds, tens and ones of V[x], whose
value they spell; every other byte, I, the registers and everything else are unchanged; AddressOverflow is raised iff I + 2
exceeds 0xFFF. Masking is the spec's decision D6, digit values its D35 (log 16). [derived: 42_index_memory.md section 3 (LD
B,Vx), 20_memory.md section 2, 92_eei_decisions.md D6, D35] -/
def Obligations.BcdStoresThreeDigits : Prop :=
  ∀ (x : RegIdx) (s : State), ∃ t, exec (.ldB x) s = .next t ∧ Advances s t ∧
    (t.readByte (s.indexAddr 0)).toNat = (s.reg x).toNat / 100 ∧
    (t.readByte (s.indexAddr 1)).toNat = (s.reg x).toNat / 10 % 10 ∧
    (t.readByte (s.indexAddr 2)).toNat = (s.reg x).toNat % 10 ∧
    (∀ a, (∀ k < 3, a % 4096 ≠ s.indexAddr k % 4096) → t.readByte a = s.readByte a) ∧
    t.diag = diagAfter s.diag s.i.toNat 3 ∧
    { t with mem := s.mem, diag := s.diag, pc := s.pc } = s

/-- LD [I],Vx completes in every state and advances PC; for every k up to x the byte at I + k is V[k]; every other byte of
memory is unchanged; I becomes (I + x + 1) mod 65536 with store_load_increments_index and stays otherwise; AddressOverflow
is raised iff I + x exceeds 0xFFF; nothing else changes. Masking and the increment are the spec's decisions D6, D10 (log
16). [derived: 42_index_memory.md section 3 (LD [I],Vx), 20_memory.md section 2, 92_eei_decisions.md D6, D10] -/
def Obligations.RegisterDumpStoresV0ToVx : Prop :=
  ∀ (x : RegIdx) (s : State), ∃ t, exec (.ldMemVx x) s = .next t ∧ Advances s t ∧
    (∀ k, k ≤ x.toNat → t.readByte (s.i.toNat + k) = s.reg (BitVec.ofNat 4 k)) ∧
    (∀ a, (∀ k, k ≤ x.toNat → a % 4096 ≠ (s.i.toNat + k) % 4096) → t.readByte a = s.readByte a) ∧
    t.i.toNat = (if s.cfg.storeLoadIncrementsIndex then (s.i.toNat + x.toNat + 1) % 65536 else s.i.toNat) ∧
    t.diag = diagAfter s.diag s.i.toNat (x.toNat + 1) ∧
    { t with mem := s.mem, i := s.i, diag := s.diag, pc := s.pc } = s

/-- LD Vx,[I] completes in every state and advances PC; V[r] becomes the byte at I + r for r up to x, the registers above x are
unchanged; I as for the register dump; AddressOverflow is raised iff I + x exceeds 0xFFF; nothing else changes. Masking and
the increment are the spec's decisions D6, D10 (log 16). [derived: 42_index_memory.md section 3 (LD Vx,[I]), 20_memory.md
section 2, 92_eei_decisions.md D6, D10] -/
def Obligations.RegisterLoadFillsV0ToVx : Prop :=
  ∀ (x : RegIdx) (s : State), ∃ t, exec (.ldVxMem x) s = .next t ∧ Advances s t ∧
    (∀ r, t.reg r = if r.toNat ≤ x.toNat then s.readByte (s.i.toNat + r.toNat) else s.reg r) ∧
    t.i.toNat = (if s.cfg.storeLoadIncrementsIndex then (s.i.toNat + x.toNat + 1) % 65536 else s.i.toNat) ∧
    t.diag = diagAfter s.diag s.i.toNat (x.toNat + 1) ∧
    { t with v := s.v, i := s.i, diag := s.diag, pc := s.pc } = s ∧ SameMemory s t

/-- Without the index quirk: LD [I],Vx, then any change of the general registers, then LD Vx,[I] gives back the original values
of V0..Vx; the registers above x keep what they held in between. [derived: 42_index_memory.md section 3 (round-trip
property), 95_test_vectors.md S11] -/
def Obligations.DumpThenLoadRestoresTheRegisters : Prop :=
  ∀ (x : RegIdx) (s : State), s.cfg.storeLoadIncrementsIndex = false →
    ∃ t, exec (.ldMemVx x) s = .next t ∧
      ∀ v : Vector Byte 16, ∃ u, exec (.ldVxMem x) { t with v := v } = .next u ∧
        (∀ r, r.toNat ≤ x.toNat → u.reg r = s.reg r) ∧
        (∀ r, x.toNat < r.toNat → u.reg r = ({ t with v := v } : State).reg r)

/-- Both complete in every state and advance PC; LD R,Vx makes AUX[r] equal V[r] for r up to x and leaves the other entries; LD
Vx,R makes V[r] equal AUX[r] for r up to x and leaves the other registers; memory, I and everything else are unchanged. That
the file has 16 entries is the spec's decision D22 (log 16). [derived: 42_index_memory.md section 4, 92_eei_decisions.md
D22] -/
def Obligations.AuxiliaryTransfersCopyV0ToVx : Prop :=
  ∀ (x : RegIdx) (s : State),
    (∃ t, exec (.ldRVx x) s = .next t ∧ Advances s t ∧
      (∀ r, t.auxReg r = if r.toNat ≤ x.toNat then s.reg r else s.auxReg r) ∧
      { t with aux := s.aux, pc := s.pc } = s ∧ SameMemory s t) ∧
    (∃ t, exec (.ldVxR x) s = .next t ∧ Advances s t ∧ OnlyRegs s t ∧
      ∀ r, t.reg r = if r.toNat ≤ x.toNat then s.auxReg r else s.reg r)

/-- All three complete in every state and advance PC; every cell of the (new) grid is 0 and DIRTY is 1; EXT is unchanged by CLS,
0 after LOW, 1 after HIGH, whatever it was; nothing else changes. That DIRTY and the clear happen unconditionally is the
spec's decisions D19, D32 (log 16). [derived: 43_display.md section 2 (CLS, LOW, HIGH), 92_eei_decisions.md D19, D32] -/
def Obligations.ClearAndModeInstructionsClearTheGrid : Prop :=
  ∀ s : State,
    (∃ t, exec .cls s = .next t ∧ Advances s t ∧ t.dirty = true ∧ OnlyPicture s t ∧
      ∀ row col, row < s.height → col < s.width → t.fb.cell row col = false) ∧
    (∃ t, exec .low s = .next t ∧ Advances s t ∧ t.dirty = true ∧ t.ext = false ∧ OnlyPicture { s with ext := false } t ∧
      t.width = 64 ∧ t.height = 32 ∧ ∀ row col, row < t.height → col < t.width → t.fb.cell row col = false) ∧
    (∃ t, exec .high s = .next t ∧ Advances s t ∧ t.dirty = true ∧ t.ext = true ∧ OnlyPicture { s with ext := true } t ∧
      t.width = 128 ∧ t.height = 64 ∧ ∀ row col, row < t.height → col < t.width → t.fb.cell row col = false)

/-- All three complete in every state, advance PC and set DIRTY; on the current grid, SCD moves every row down by n, with 0
moved in; for every integer SCROLL_H = d, SCR gives column col the old column col - d, or 0 where col < d, and SCL gives it
the old column col + d, or 0 where col + d > W - 1; nothing else changes. With d negative the formulas reach columns outside
the grid, where the spec states no value and the cell is a free value of the model (log 14): of such a cell nothing is said.
The horizontal distance and the modes are the spec's decision D18 (log 16). [derived: 43_display.md section 2 (SCD, SCR,
SCL), 00_scope.md section 4 (configuration parameters), 92_eei_decisions.md D18, D36] -/
def Obligations.ScrollsShiftTheGrid : Prop :=
  ∀ (n : Nibble) (s : State),
    (∃ t, exec (.scd n) s = .next t ∧ Advances s t ∧ t.dirty = true ∧ OnlyPicture s t ∧
      ∀ row col, row < s.height → col < s.width →
        t.fb.cell row col = if n.toNat ≤ row then s.fb.cell (row - n.toNat) col else false) ∧
    (∃ t, exec .scr s = .next t ∧ Advances s t ∧ t.dirty = true ∧ OnlyPicture s t ∧
      ∀ row col : Nat, row < s.height → col < s.width → (col : Int) - s.cfg.scrollH < s.width →
        t.fb.cell row col =
          if s.cfg.scrollH ≤ col then s.fb.cell row ((col : Int) - s.cfg.scrollH).toNat else false) ∧
    (∃ t, exec .scl s = .next t ∧ Advances s t ∧ t.dirty = true ∧ OnlyPicture s t ∧
      ∀ row col : Nat, row < s.height → col < s.width → 0 ≤ (col : Int) + s.cfg.scrollH →
        t.fb.cell row col =
          if (col : Int) + s.cfg.scrollH ≤ s.width - 1 then s.fb.cell row ((col : Int) + s.cfg.scrollH).toNat
          else false)

/-- DRW completes in every state and advances PC: the cell of sprite row r and column c, its coordinates reduced modulo H and W,
is XORed with the sprite's bit, every other cell is unchanged, VF is 1 iff some 1 bit met a set cell and 0 otherwise, DIRTY
is set, AddressOverflow is raised iff the highest address read exceeds 0xFFF; nothing else changes. n rows of 8 columns, or
16 of 16 in extended mode with n = 0 and the configured support. Bit order, wrapping of every pixel and n = 0 are the spec's
decisions D15, D16, D17, masking its D6 (log 16). [derived: 43_display.md section 2 (DRW), 92_eei_decisions.md D6, D15, D16,
D17] -/
def Obligations.DrawXorsTheSpriteOntoTheGrid : Prop :=
  ∀ (x y : RegIdx) (n : Nibble) (s : State),
    let big := s.ext && n == 0 && s.cfg.extendedSpriteSupport
    let rows := if big then 16 else n.toNat
    let cols := if big then 16 else 8
    let px := fun c => ((s.reg x).toNat + c) % s.width
    let py := fun r => ((s.reg y).toNat + r) % s.height
    ∃ t, exec (.drw x y n) s = .next t ∧ Advances s t ∧ t.dirty = true ∧
      (∀ r < rows, ∀ c < cols,
        t.fb.cell (py r) (px c) = (s.fb.cell (py r) (px c) ^^ s.spriteDot n r c)) ∧
      (∀ row col, (∀ r < rows, ∀ c < cols, ¬(row = py r ∧ col = px c)) → t.fb.cell row col = s.fb.cell row col) ∧
      (t.reg 15 = 0 ∨ t.reg 15 = 1) ∧
      (t.reg 15 = 1 ↔ ∃ r < rows, ∃ c < cols, s.spriteDot n r c = true ∧ s.fb.cell (py r) (px c) = true) ∧
      (∀ r, r ≠ 15 → t.reg r = s.reg r) ∧
      t.diag = diagAfter s.diag s.i.toNat (if big then 32 else n.toNat) ∧
      { t with v := s.v, fb := s.fb, dirty := s.dirty, diag := s.diag, pc := s.pc } = s ∧ SameMemory s t

/-- DRW, then DRW again with the same registers, I, memory, n and mode, gives back the display buffer it started from; the
second DRW sets VF to 1 iff the sprite has a 1 bit whose cell was clear before the first draw. The geometry rests on the
spec's decisions D15, D16, D17 (log 16). [derived: 43_display.md section 3 (laws), 95_test_vectors.md S6] -/
def Obligations.DrawingTwiceRestoresThePicture : Prop :=
  ∀ (x y : RegIdx) (n : Nibble) (s : State),
    let big := s.ext && n == 0 && s.cfg.extendedSpriteSupport
    let rows := if big then 16 else n.toNat
    let cols := if big then 16 else 8
    ∃ t u, exec (.drw x y n) s = .next t ∧ exec (.drw x y n) { t with v := s.v } = .next u ∧ u.fb = s.fb ∧
      (u.reg 15 = 1 ↔ ∃ r < rows, ∃ c < cols, s.spriteDot n r c = true ∧
        s.fb.cell (((s.reg y).toNat + r) % s.height) (((s.reg x).toNat + c) % s.width) = false)

/-- Both complete in every state; SKP adds 4 to PC when KEYS[V[x] mod 16] is pressed and 2 otherwise, SKNP the reverse; nothing
else changes. The index modulo 16 is the spec's decision D23 (log 16). [derived: 44_timer_keypad.md section 1,
92_eei_decisions.md D23] -/
def Obligations.KeySkipsTestTheIndexedSlot : Prop :=
  ∀ (x : RegIdx) (s : State),
    let pressed := s.key (BitVec.ofNat 4 ((s.reg x).toNat % 16))
    (∃ t, exec (.skp x) s = .next t ∧ OnlyPc s t ∧
      t.pc.toNat = (s.pc.toNat + if pressed then 4 else 2) % 65536) ∧
    (∃ t, exec (.sknp x) s = .next t ∧ OnlyPc s t ∧
      t.pc.toNat = (s.pc.toNat + if pressed then 2 else 4) % 65536)

/-- All three complete in every state and advance PC; LD Vx,DT writes DT to V[x], LD DT,Vx writes V[x] to DT, LD ST,Vx writes
V[x] to ST; no flag, the timestamps and everything else are unchanged. [stated: R152, R153, R154] -/
def Obligations.TimerTransfersCopy : Prop :=
  ∀ (x : RegIdx) (s : State),
    (∃ t, exec (.ldVxDT x) s = .next t ∧ Advances s t ∧ OnlyRegs s t ∧
      ∀ r, t.reg r = if r = x then s.dt else s.reg r) ∧
    (∃ t, exec (.ldDTVx x) s = .next t ∧ Advances s t ∧ t.dt = s.reg x ∧
      { t with dt := s.dt, pc := s.pc } = s ∧ SameMemory s t) ∧
    (∃ t, exec (.ldSTVx x) s = .next t ∧ Advances s t ∧ t.st = s.reg x ∧
      { t with st := s.st, pc := s.pc } = s ∧ SameMemory s t)

/-- With no key pressed the instruction leaves the whole state, PC included, as it is; with a key pressed it completes: V[x]
becomes the least pressed key, PC advances, KEYS and everything else are unchanged. That the lowest key wins and the test is
on the level is the spec's decision D24 and conflict C3 (log 16). [derived: 44_timer_keypad.md section 3, 90_conflicts.md
C3, 92_eei_decisions.md D24] -/
def Obligations.KeyWaitGatesThePc : Prop :=
  (∀ (x : RegIdx) (s : State), (∀ k, s.key k = false) → exec (.ldVxK x) s = .next s) ∧
  (∀ (x : RegIdx) (k : BitVec 4) (s : State), s.key k = true → (∀ j, j < k → s.key j = false) →
    ∃ t, exec (.ldVxK x) s = .next t ∧ Advances s t ∧ OnlyRegs s t ∧
      ∀ r, (t.reg r).toNat = if r = x then k.toNat else (s.reg r).toNat)

/-- The event SetKey(k, pressed) makes KEYS[k] equal pressed and changes no other slot and no other state. That it comes from a
queue is the model's own (log 5). [derived: 60_exceptions.md section 7 (SetKey)] -/
def Obligations.SetKeyWritesOneSlot : Prop :=
  ∀ (k : BitVec 4) (pressed : Bool), Performs (.setKey k pressed) fun s t =>
    (∀ j, t.key j = if j = k then pressed else s.key j) ∧ { t with keys := s.keys } = s

/-- Each tick event lowers its own timer by 1 if it is not 0 and changes nothing else; the two timers tick independently.
[derived: 60_exceptions.md section 6] -/
def Obligations.TicksDecrementTowardZero : Prop :=
  (Performs .tickDT fun s t => t.dt.toNat = s.dt.toNat - 1 ∧ { t with dt := s.dt } = s) ∧
  (Performs .tickST fun s t => t.st.toNat = s.st.toNat - 1 ∧ { t with st := s.st } = s)

/-- The event TickTimers(now) performs TickDT and sets LAST_DT to now iff now - LAST_DT has reached the tick period, and
likewise TickST and LAST_ST; apart from the timestamps it is zero or one TickDT followed by zero or one TickST. When the
timestamp moves is the spec's decision D28 (log 16); the clock unit is the model's (log 9). [derived: 60_exceptions.md
section 6, 92_eei_decisions.md D28] -/
def Obligations.TimedTickIsAnInterleavingOfUntimedTicks : Prop :=
  ∀ now : Nat, Performs (.tickTimers now) fun s t =>
    let dueDT := s.lastDT + s.cfg.tickPeriod ≤ now
    let dueST := s.lastST + s.cfg.tickPeriod ≤ now
    t.lastDT = (if dueDT then now else s.lastDT) ∧ t.lastST = (if dueST then now else s.lastST) ∧
    let a := if dueDT then s.tickDT else s
    let b := if dueST then a.tickST else a
    { t with lastDT := s.lastDT, lastST := s.lastST } = b

/-- With both timestamps t0, a tick period of two clock units and the calls TickTimers(t0 + 1), ..., TickTimers(t0 + k), a timer
initialized to 60 holds 60 - k div 2 for every k up to 120: it decrements at k = 2, 4, ..., 120, by at most 1 per 1/60 s
window, and is 0 first at k = 120, that is t0 + 1 s. The same holds of both timers. One clock unit is 1/120 s, the model's
choice (log 9); when the timestamps move is the spec's decision D28 (log 16). [derived: 60_exceptions.md section 6 (timed
form, cadence property), 92_eei_decisions.md D28] -/
def Obligations.TimerCadenceOverOneSecond : Prop :=
  ∀ (t0 : Nat) (s : State), s.cfg.tickPeriod = 2 → s.lastDT = t0 → s.lastST = t0 →
    (s.dt.toNat = 60 → ∀ k, k ≤ 120 → (s.clock t0 k).dt.toNat = 60 - k / 2) ∧
    (s.st.toNat = 60 → ∀ k, k ≤ 120 → (s.clock t0 k).st.toNat = 60 - k / 2)

/-- After the event ConsumeFrame DIRTY is 0; the buffer and everything else are unchanged. That the clear is an event of its own
is the spec's decision D32 (log 16). [derived: 60_exceptions.md section 8, 92_eei_decisions.md D32] -/
def Obligations.ConsumeFrameClearsOnlyDirty : Prop :=
  Performs .consumeFrame fun s t => t.dirty = false ∧ { t with dirty := s.dirty } = s

/-- If address + length exceeds 4096 the event answers LoadError and changes nothing; otherwise it answers ok, byte j stands at
address + j, every other byte is unchanged, and nothing but memory changes: no register, timer, stack, key or display, and
PC is not set. Never truncating is the spec's decision D27 (conflict C4); the result is shown on the model's load port (log
8). [derived: 60_exceptions.md section 9, 90_conflicts.md C4, 92_eei_decisions.md D27] -/
def Obligations.LoadWritesMemoryOrNothing : Prop :=
  ∀ (bytes : List Byte) (address : Word), Performs (.load bytes address) fun s t =>
    (4096 < address.toNat + bytes.length → { t with loadResult := s.loadResult } = s ∧ t.loadResult = some .loadError) ∧
    (address.toNat + bytes.length ≤ 4096 →
      (∀ j (h : j < bytes.length), t.readByte (address.toNat + j) = bytes[j]) ∧
      (∀ a, a < 4096 → (a < address.toNat ∨ address.toNat + bytes.length ≤ a) → t.readByte a = s.readByte a) ∧
      t.loadResult = some .ok ∧ { t with mem := s.mem, loadResult := s.loadResult } = s)

/-- From every state the event Reset at time t gives the reset state of the machine's configuration with both timestamps t; a
second Reset at the same time changes nothing more. Nothing of the old memory, registers or picture survives; only the
model's own queue and draw counter do (log 5, log 6). What reset covers is the spec's decision D26 (log 16). [derived:
70_reset_and_hazards.md section 1, 92_eei_decisions.md D26] -/
def Obligations.ResetReturnsToTheResetState : Prop :=
  (∀ time : Nat, Performs (.reset time) fun s t =>
      { t with draws := 0, pending := [] } = State.resetWith s.cfg time ∧ t.draws = s.draws ∧ t.pending = s.pending) ∧
  (∀ (time : Nat) (s : State) (es : List Event), s.pending = .reset time :: .reset time :: es →
    ∃ t u, step s = .next t ∧ step t = .next u ∧ { t with pending := es } = u)

/-- Framebuffer() gives the width and height of the mode and W*H cells, of which the one at index row*W + col is FB[row][col].
It is a function of the state and so changes nothing, DIRTY included. [stated: R186] -/
def Obligations.FramebufferIsRowMajor : Prop :=
  ∀ s : State, s.framebuffer.1 = (if s.ext then 128 else 64) ∧ s.framebuffer.2.1 = (if s.ext then 64 else 32) ∧
    s.framebuffer.2.2.length = s.framebuffer.1 * s.framebuffer.2.1 ∧
    ∀ row col, row < s.framebuffer.2.1 → col < s.framebuffer.1 →
      s.framebuffer.2.2[row * s.framebuffer.1 + col]? = some (s.fb.cell row col)
end

