-- ==== Sys2Proof/Laws/Frame.lean ====
section
/-! SUPPORT. The display buffer: reading a row or a cell after each operation, and that each keeps the buffer confined. -/

namespace Sys2Proof.Machine

@[simp] theorem Frame.row_setRow (f : Frame) (r k : Nat) (b : BitVec 128) :
    (f.setRow r b).row k = if k = r ∧ r < 64 then b else f.row k := by
  unfold Frame.setRow Frame.row
  by_cases hr : r < 64 <;> by_cases hk : k < 64 <;> simp [hr, hk, Vector.getElem_set, eq_comm (a := k)]
  omega

@[simp] theorem Frame.row_ofRows (g : Nat → BitVec 128) (r : Nat) :
    (Frame.ofRows g).row r = if r < 64 then g r else 0 := by
  unfold Frame.row Frame.ofRows
  split
  · simp [Vector.getElem_mk]
  · rfl

@[simp] theorem Frame.row_clear (r : Nat) : Frame.clear.row r = 0 := by
  simp [Frame.row, Frame.clear]

@[simp] theorem Frame.cell_clear (row col : Nat) : Frame.clear.cell row col = false := by
  simp [Frame.cell]

theorem Frame.ext_rows {f g : Frame} (h : ∀ r, r < 64 → f.row r = g.row r) : f = g := by
  ext r hr : 1
  simpa [Frame.row, hr] using h r hr

theorem gridHeight_le (e : Bool) : gridHeight e ≤ 64 := by cases e <;> decide

theorem gridWidth_le (e : Bool) : gridWidth e ≤ 128 := by cases e <;> decide

theorem gridHeight_pos (e : Bool) : 0 < gridHeight e := by cases e <;> decide

theorem gridWidth_pos (e : Bool) : 0 < gridWidth e := by cases e <;> decide

@[simp] theorem getLsbD_colMask (w c : Nat) (hw : w ≤ 128) : (colMask w).getLsbD c = decide (c < w) := by
  simp only [colMask, BitVec.getLsbD_ofNat, Nat.testBit_two_pow_sub_one]
  by_cases h : c < w
  · simp [h, Nat.lt_of_lt_of_le h hw]
  · simp [h]

/-- R133, cell by cell. -/
theorem Frame.cell_scrollDown (e : Bool) (n : Nat) (f : Frame) (row col : Nat) :
    (f.scrollDown e n).cell row col =
      (decide (row < gridHeight e ∧ col < gridWidth e ∧ n ≤ row) && f.cell (row - n) col) := by
  have hh := gridHeight_le e
  simp only [Frame.cell, Frame.scrollDown, Frame.row_ofRows]
  by_cases h1 : row < gridHeight e
  · rw [if_pos (by omega)]
    by_cases h2 : n ≤ row
    · rw [if_pos ⟨h1, h2⟩, BitVec.getLsbD_and, getLsbD_colMask _ _ (gridWidth_le e)]
      simp [h1, h2, Bool.and_comm]
    · rw [if_neg (by tauto)]; simp [h2]
  · rw [if_neg (c := _ ∧ _) (by tauto)]; simp [h1]

/-- A move to the right, cell by cell. -/
theorem Frame.cell_moveRight (e : Bool) (k : Nat) (fill : Nat → BitVec 128) (f : Frame) (row col : Nat) :
    (f.moveRight e k fill).cell row col =
      (decide (row < gridHeight e ∧ col < gridWidth e) &&
        if k ≤ col then f.cell row (col - k) else (fill row).getLsbD col) := by
  have hh := gridHeight_le e
  have hw := gridWidth_le e
  simp only [Frame.cell, Frame.moveRight, Frame.row_ofRows]
  by_cases h1 : row < gridHeight e
  · rw [if_pos (by omega), if_pos h1]
    simp only [BitVec.getLsbD_and, BitVec.getLsbD_or, BitVec.getLsbD_not, BitVec.getLsbD_shiftLeft,
      BitVec.getLsbD_allOnes, getLsbD_colMask _ _ hw]
    by_cases h2 : col < gridWidth e
    · have h3 : col < 128 := by omega
      by_cases h4 : k ≤ col
      · have h5 : ¬ col < k := by omega
        simp [h1, h2, h3, h4, h5]
        omega
      · have h5 : col < k := by omega
        simp [h1, h2, h3, h4, h5]
    · simp [h2]
  · simp [h1]

/-- A move to the left, cell by cell. -/
theorem Frame.cell_moveLeft (e : Bool) (k : Nat) (fill : Nat → BitVec 128) (f : Frame) (row col : Nat) :
    (f.moveLeft e k fill).cell row col =
      (decide (row < gridHeight e ∧ col < gridWidth e) &&
        if col + k < gridWidth e then f.cell row (col + k) else (fill row).getLsbD col) := by
  have hh := gridHeight_le e
  have hw := gridWidth_le e
  simp only [Frame.cell, Frame.moveLeft, Frame.row_ofRows]
  by_cases h1 : row < gridHeight e
  · rw [if_pos (by omega), if_pos h1]
    simp only [BitVec.getLsbD_and, BitVec.getLsbD_or, BitVec.getLsbD_not, BitVec.getLsbD_ushiftRight,
      getLsbD_colMask _ _ hw, Nat.add_comm k col]
    by_cases h2 : col < gridWidth e
    · have h3 : col < 128 := by omega
      by_cases h4 : col + k < gridWidth e <;> simp [h1, h2, h3, h4]
    · simp [h2]
  · simp [h1]

/-- R134, cell by cell, for every integer distance. -/
theorem Frame.cell_scrollRight (e : Bool) (free : Nat → BitVec 128) (f : Frame) (d : Int) (row col : Nat) :
    (f.scrollRight e free d).cell row col =
      (decide (row < gridHeight e ∧ col < gridWidth e) &&
        if (col : Int) < d then false
        else if (col : Int) - d < gridWidth e then f.cell row ((col : Int) - d).toNat
        else (free row).getLsbD col) := by
  cases d with
  | ofNat k =>
    simp only [Frame.scrollRight, Frame.cell_moveRight, Int.ofNat_eq_natCast]
    by_cases h1 : col < gridWidth e
    · by_cases h2 : k ≤ col
      · rw [if_pos h2, if_neg (by omega), if_pos (by omega), show ((col : Int) - k).toNat = col - k by omega]
      · rw [if_neg h2, if_pos (by omega)]
        simp
    · simp [h1]
  | negSucc k =>
    simp only [Frame.scrollRight, Frame.cell_moveLeft, Int.negSucc_eq]
    by_cases h2 : col + (k + 1) < gridWidth e
    · rw [if_pos h2, if_neg (by omega), if_pos (by omega),
        show ((col : Int) - -((k : Int) + 1)).toNat = col + (k + 1) by omega]
    · rw [if_neg h2, if_neg (by omega), if_neg (by omega)]

/-- R135, cell by cell, for every integer distance. -/
theorem Frame.cell_scrollLeft (e : Bool) (free : Nat → BitVec 128) (f : Frame) (d : Int) (row col : Nat) :
    (f.scrollLeft e free d).cell row col =
      (decide (row < gridHeight e ∧ col < gridWidth e) &&
        if (gridWidth e : Int) ≤ col + d then false
        else if 0 ≤ (col : Int) + d then f.cell row ((col : Int) + d).toNat
        else (free row).getLsbD col) := by
  cases d with
  | ofNat k =>
    simp only [Frame.scrollLeft, Frame.cell_moveLeft, Int.ofNat_eq_natCast]
    by_cases h2 : col + k < gridWidth e
    · rw [if_pos h2, if_neg (by omega), if_pos (by omega), show ((col : Int) + k).toNat = col + k by omega]
    · rw [if_neg h2, if_pos (by omega)]
      simp
  | negSucc k =>
    simp only [Frame.scrollLeft, Frame.cell_moveRight, Int.negSucc_eq]
    by_cases h1 : col < gridWidth e
    · by_cases h2 : k + 1 ≤ col
      · rw [if_pos h2, if_neg (by omega), if_pos (by omega),
          show ((col : Int) + -((k : Int) + 1)).toNat = col - (k + 1) by omega]
      · rw [if_neg h2, if_neg (by omega), if_neg (by omega)]
    · simp [h1]

/-- The cells of a display row that a sprite row falls on. -/
theorem Sprite.getLsbD_rowMask (p : Sprite) (w r n col : Nat) (hw : w ≤ 128) (hw0 : 0 < w) :
    (p.rowMask w r n).getLsbD col = true ↔ ∃ c < n, p.on r c = true ∧ col = (p.x0 + c) % w := by
  induction n with
  | zero => simp [Sprite.rowMask]
  | succ n ih =>
    have hlt : (p.x0 + n) % w < w := Nat.mod_lt _ hw0
    have hbit : (if p.on r n then 1#128 <<< ((p.x0 + n) % w) else 0).getLsbD col = true ↔
        p.on r n = true ∧ col = (p.x0 + n) % w := by
      split
      · rename_i hon
        simp only [hon, true_and, BitVec.getLsbD_shiftLeft, BitVec.getLsbD_one]
        simp
        omega
      · simp_all
    rw [Sprite.rowMask, BitVec.getLsbD_or, Bool.or_eq_true, ih, hbit]
    constructor
    · rintro (⟨c, hc, h⟩ | h)
      · exact ⟨c, by omega, h⟩
      · exact ⟨n, by omega, h⟩
    · rintro ⟨c, hc, h⟩
      by_cases hn : c = n
      · subst hn; exact .inr h
      · exact .inl ⟨c, by omega, h⟩

theorem Frame.clear_confined (e : Bool) : Frame.confined e Frame.clear := by
  intro row col h; simp at h

theorem Frame.scrollDown_confined (e : Bool) (n : Nat) (f : Frame) : Frame.confined e (f.scrollDown e n) := by
  intro row col h
  rw [Frame.cell_scrollDown] at h
  simp only [Bool.and_eq_true, decide_eq_true_eq] at h
  exact ⟨h.1.1, h.1.2.1⟩

theorem Frame.scrollRight_confined (e : Bool) (free : Nat → BitVec 128) (f : Frame) (d : Int) :
    Frame.confined e (f.scrollRight e free d) := by
  intro row col h
  rw [Frame.cell_scrollRight, Bool.and_eq_true, decide_eq_true_eq] at h
  exact h.1

theorem Frame.scrollLeft_confined (e : Bool) (free : Nat → BitVec 128) (f : Frame) (d : Int) :
    Frame.confined e (f.scrollLeft e free d) := by
  intro row col h
  rw [Frame.cell_scrollLeft, Bool.and_eq_true, decide_eq_true_eq] at h
  exact h.1

/-- Drawing keeps the buffer confined: every pixel's coordinates are reduced modulo W and H (R131). -/
theorem Frame.draw_confined (e : Bool) (p : Sprite) (f : Frame) (n : Nat) (h : Frame.confined e f) :
    Frame.confined e (Frame.draw e p f n).1 := by
  induction n with
  | zero => exact h
  | succ n ih =>
    intro row col hc
    simp only [Frame.draw, Frame.cell, Frame.row_setRow] at hc
    split at hc
    · rename_i hr
      have hy : (p.y0 + n) % gridHeight e < gridHeight e := Nat.mod_lt _ (gridHeight_pos e)
      refine ⟨by omega, ?_⟩
      rw [BitVec.getLsbD_xor] at hc
      by_cases hm : (p.rowMask (gridWidth e) n p.cols).getLsbD col = true
      · obtain ⟨c, -, -, rfl⟩ := (p.getLsbD_rowMask _ _ _ _ (gridWidth_le e) (gridWidth_pos e)).mp hm
        exact Nat.mod_lt _ (gridWidth_pos e)
      · simp only [hm, Bool.xor_false] at hc
        exact (ih _ _ hc).2
    · exact ih row col hc

/-- The rows of the buffer after drawing `n` sprite rows: each drawn row is XORed with its mask, the others are as before; no
row is drawn twice, since a sprite has at most 16 rows and H is at least 32 (R131). -/
theorem Frame.row_draw (e : Bool) (p : Sprite) (f : Frame) (n : Nat) (hn : n ≤ 16) :
    (∀ r < n, (Frame.draw e p f n).1.row ((p.y0 + r) % gridHeight e) =
      f.row ((p.y0 + r) % gridHeight e) ^^^ p.rowMask (gridWidth e) r p.cols) ∧
    (∀ k, (∀ r < n, k ≠ (p.y0 + r) % gridHeight e) → (Frame.draw e p f n).1.row k = f.row k) := by
  have hH : gridHeight e = 32 ∨ gridHeight e = 64 := by cases e <;> simp [gridHeight]
  induction n with
  | zero => exact ⟨fun r hr => absurd hr (by omega), fun _ _ => rfl⟩
  | succ n ih =>
    obtain ⟨ih1, ih2⟩ := ih (by omega)
    have hlt : (p.y0 + n) % gridHeight e < 64 :=
      Nat.lt_of_lt_of_le (Nat.mod_lt _ (gridHeight_pos e)) (gridHeight_le e)
    have hne : ∀ r < n, (p.y0 + r) % gridHeight e ≠ (p.y0 + n) % gridHeight e := by
      intro r hr; rcases hH with h | h <;> rw [h] <;> omega
    refine ⟨fun r hr => ?_, fun k hk => ?_⟩
    · simp only [Frame.draw, Frame.row_setRow]
      by_cases hrn : r = n
      · subst hrn
        rw [if_pos ⟨rfl, hlt⟩, ih2 _ fun j hj => (hne j hj).symm]
      · rw [if_neg fun h => hne r (by omega) h.1]
        exact ih1 r (by omega)
    · simp only [Frame.draw, Frame.row_setRow]
      rw [if_neg fun h => hk n (by omega) h.1]
      exact ih2 k fun r hr => hk r (by omega)

/-- The collision flag of drawing `n` sprite rows: a 1 bit of the sprite fell on a cell set before (R131). -/
theorem Frame.draw_hit (e : Bool) (p : Sprite) (f : Frame) (n : Nat) (hn : n ≤ 16) :
    (Frame.draw e p f n).2 = true ↔
      ∃ r < n, ∃ c < p.cols, p.on r c = true ∧
        f.cell ((p.y0 + r) % gridHeight e) ((p.x0 + c) % gridWidth e) = true := by
  have hH : gridHeight e = 32 ∨ gridHeight e = 64 := by cases e <;> simp [gridHeight]
  induction n with
  | zero => simp [Frame.draw]
  | succ n ih =>
    have hne : ∀ r < n, (p.y0 + n) % gridHeight e ≠ (p.y0 + r) % gridHeight e := by
      intro r hr; rcases hH with h | h <;> rw [h] <;> omega
    have hrow := (Frame.row_draw e p f n (by omega)).2 _ hne
    have hand : (f.row ((p.y0 + n) % gridHeight e) &&& p.rowMask (gridWidth e) n p.cols != 0) = true ↔
        ∃ c < p.cols, p.on n c = true ∧
          f.cell ((p.y0 + n) % gridHeight e) ((p.x0 + c) % gridWidth e) = true := by
      have hm := fun col => p.getLsbD_rowMask (gridWidth e) n p.cols col (gridWidth_le e) (gridWidth_pos e)
      rw [bne_iff_ne]
      constructor
      · intro h
        by_contra hno
        refine h (BitVec.eq_of_getLsbD_eq fun col _ => ?_)
        show _ = (0#128).getLsbD col
        rw [BitVec.getLsbD_and, BitVec.getLsbD_zero, Bool.and_eq_false_iff]
        by_cases hc : (p.rowMask (gridWidth e) n p.cols).getLsbD col = true
        · obtain ⟨c, hc1, hc2, rfl⟩ := (hm col).mp hc
          left
          by_contra hf
          exact hno ⟨c, hc1, hc2, by simpa [Frame.cell] using hf⟩
        · right; simpa using hc
      · rintro ⟨c, hc1, hc2, hc3⟩ h
        have h0 := congrArg (fun b : BitVec 128 => b.getLsbD ((p.x0 + c) % gridWidth e)) h
        simp only [Frame.cell] at hc3
        simp [BitVec.getLsbD_and, hc3, (hm _).mpr ⟨c, hc1, hc2, rfl⟩] at h0
    simp only [Frame.draw, Bool.or_eq_true, hrow, ih (by omega), hand]
    constructor
    · rintro (⟨r, hr, h⟩ | h)
      · exact ⟨r, by omega, h⟩
      · exact ⟨n, by omega, h⟩
    · rintro ⟨r, hr, h⟩
      by_cases hrn : r = n
      · subst hrn; exact .inr h
      · exact .inl ⟨r, by omega, h⟩

end Sys2Proof.Machine
end

