-- ==== Sys2Proof/Laws/State.lean ====
section
/-! SUPPORT. What each update of the state does to each of its fields, once, so that no proof unfolds a record update. -/

namespace Sys2Proof.Machine

variable (s : State)

/-! `State.setReg` -/

@[simp] theorem State.setReg_v (x : RegIdx) (b : Byte) : (s.setReg x b).v = s.v.set x.toNat b x.isLt := rfl
@[simp] theorem State.setReg_i (x : RegIdx) (b : Byte) : (s.setReg x b).i = s.i := rfl
@[simp] theorem State.setReg_pc (x : RegIdx) (b : Byte) : (s.setReg x b).pc = s.pc := rfl
@[simp] theorem State.setReg_stack (x : RegIdx) (b : Byte) : (s.setReg x b).stack = s.stack := rfl
@[simp] theorem State.setReg_sp (x : RegIdx) (b : Byte) : (s.setReg x b).sp = s.sp := rfl
@[simp] theorem State.setReg_aux (x : RegIdx) (b : Byte) : (s.setReg x b).aux = s.aux := rfl
@[simp] theorem State.setReg_dt (x : RegIdx) (b : Byte) : (s.setReg x b).dt = s.dt := rfl
@[simp] theorem State.setReg_st (x : RegIdx) (b : Byte) : (s.setReg x b).st = s.st := rfl
@[simp] theorem State.setReg_keys (x : RegIdx) (b : Byte) : (s.setReg x b).keys = s.keys := rfl
@[simp] theorem State.setReg_ext (x : RegIdx) (b : Byte) : (s.setReg x b).ext = s.ext := rfl
@[simp] theorem State.setReg_dirty (x : RegIdx) (b : Byte) : (s.setReg x b).dirty = s.dirty := rfl
@[simp] theorem State.setReg_fb (x : RegIdx) (b : Byte) : (s.setReg x b).fb = s.fb := rfl
@[simp] theorem State.setReg_mem (x : RegIdx) (b : Byte) : (s.setReg x b).mem = s.mem := rfl
@[simp] theorem State.setReg_diag (x : RegIdx) (b : Byte) : (s.setReg x b).diag = s.diag := rfl
@[simp] theorem State.setReg_lastDT (x : RegIdx) (b : Byte) : (s.setReg x b).lastDT = s.lastDT := rfl
@[simp] theorem State.setReg_lastST (x : RegIdx) (b : Byte) : (s.setReg x b).lastST = s.lastST := rfl
@[simp] theorem State.setReg_lastWord (x : RegIdx) (b : Byte) : (s.setReg x b).lastWord = s.lastWord := rfl
@[simp] theorem State.setReg_cfg (x : RegIdx) (b : Byte) : (s.setReg x b).cfg = s.cfg := rfl
@[simp] theorem State.setReg_rnd (x : RegIdx) (b : Byte) : (s.setReg x b).rnd = s.rnd := rfl
@[simp] theorem State.setReg_draws (x : RegIdx) (b : Byte) : (s.setReg x b).draws = s.draws := rfl
@[simp] theorem State.setReg_pending (x : RegIdx) (b : Byte) : (s.setReg x b).pending = s.pending := rfl
@[simp] theorem State.setReg_loadResult (x : RegIdx) (b : Byte) : (s.setReg x b).loadResult = s.loadResult := rfl

/-! `State.setI` -/

@[simp] theorem State.setI_v (a : Word) : (s.setI a).v = s.v := rfl
@[simp] theorem State.setI_i (a : Word) : (s.setI a).i = a := rfl
@[simp] theorem State.setI_pc (a : Word) : (s.setI a).pc = s.pc := rfl
@[simp] theorem State.setI_stack (a : Word) : (s.setI a).stack = s.stack := rfl
@[simp] theorem State.setI_sp (a : Word) : (s.setI a).sp = s.sp := rfl
@[simp] theorem State.setI_aux (a : Word) : (s.setI a).aux = s.aux := rfl
@[simp] theorem State.setI_dt (a : Word) : (s.setI a).dt = s.dt := rfl
@[simp] theorem State.setI_st (a : Word) : (s.setI a).st = s.st := rfl
@[simp] theorem State.setI_keys (a : Word) : (s.setI a).keys = s.keys := rfl
@[simp] theorem State.setI_ext (a : Word) : (s.setI a).ext = s.ext := rfl
@[simp] theorem State.setI_dirty (a : Word) : (s.setI a).dirty = s.dirty := rfl
@[simp] theorem State.setI_fb (a : Word) : (s.setI a).fb = s.fb := rfl
@[simp] theorem State.setI_mem (a : Word) : (s.setI a).mem = s.mem := rfl
@[simp] theorem State.setI_diag (a : Word) : (s.setI a).diag = s.diag := rfl
@[simp] theorem State.setI_lastDT (a : Word) : (s.setI a).lastDT = s.lastDT := rfl
@[simp] theorem State.setI_lastST (a : Word) : (s.setI a).lastST = s.lastST := rfl
@[simp] theorem State.setI_lastWord (a : Word) : (s.setI a).lastWord = s.lastWord := rfl
@[simp] theorem State.setI_cfg (a : Word) : (s.setI a).cfg = s.cfg := rfl
@[simp] theorem State.setI_rnd (a : Word) : (s.setI a).rnd = s.rnd := rfl
@[simp] theorem State.setI_draws (a : Word) : (s.setI a).draws = s.draws := rfl
@[simp] theorem State.setI_pending (a : Word) : (s.setI a).pending = s.pending := rfl
@[simp] theorem State.setI_loadResult (a : Word) : (s.setI a).loadResult = s.loadResult := rfl

/-! `State.setPc` -/

@[simp] theorem State.setPc_v (a : Word) : (s.setPc a).v = s.v := rfl
@[simp] theorem State.setPc_i (a : Word) : (s.setPc a).i = s.i := rfl
@[simp] theorem State.setPc_pc (a : Word) : (s.setPc a).pc = a := rfl
@[simp] theorem State.setPc_stack (a : Word) : (s.setPc a).stack = s.stack := rfl
@[simp] theorem State.setPc_sp (a : Word) : (s.setPc a).sp = s.sp := rfl
@[simp] theorem State.setPc_aux (a : Word) : (s.setPc a).aux = s.aux := rfl
@[simp] theorem State.setPc_dt (a : Word) : (s.setPc a).dt = s.dt := rfl
@[simp] theorem State.setPc_st (a : Word) : (s.setPc a).st = s.st := rfl
@[simp] theorem State.setPc_keys (a : Word) : (s.setPc a).keys = s.keys := rfl
@[simp] theorem State.setPc_ext (a : Word) : (s.setPc a).ext = s.ext := rfl
@[simp] theorem State.setPc_dirty (a : Word) : (s.setPc a).dirty = s.dirty := rfl
@[simp] theorem State.setPc_fb (a : Word) : (s.setPc a).fb = s.fb := rfl
@[simp] theorem State.setPc_mem (a : Word) : (s.setPc a).mem = s.mem := rfl
@[simp] theorem State.setPc_diag (a : Word) : (s.setPc a).diag = s.diag := rfl
@[simp] theorem State.setPc_lastDT (a : Word) : (s.setPc a).lastDT = s.lastDT := rfl
@[simp] theorem State.setPc_lastST (a : Word) : (s.setPc a).lastST = s.lastST := rfl
@[simp] theorem State.setPc_lastWord (a : Word) : (s.setPc a).lastWord = s.lastWord := rfl
@[simp] theorem State.setPc_cfg (a : Word) : (s.setPc a).cfg = s.cfg := rfl
@[simp] theorem State.setPc_rnd (a : Word) : (s.setPc a).rnd = s.rnd := rfl
@[simp] theorem State.setPc_draws (a : Word) : (s.setPc a).draws = s.draws := rfl
@[simp] theorem State.setPc_pending (a : Word) : (s.setPc a).pending = s.pending := rfl
@[simp] theorem State.setPc_loadResult (a : Word) : (s.setPc a).loadResult = s.loadResult := rfl

/-! `State.advance` -/

@[simp] theorem State.advance_v : s.advance.v = s.v := rfl
@[simp] theorem State.advance_i : s.advance.i = s.i := rfl
@[simp] theorem State.advance_pc : s.advance.pc = s.pc + 2 := rfl
@[simp] theorem State.advance_stack : s.advance.stack = s.stack := rfl
@[simp] theorem State.advance_sp : s.advance.sp = s.sp := rfl
@[simp] theorem State.advance_aux : s.advance.aux = s.aux := rfl
@[simp] theorem State.advance_dt : s.advance.dt = s.dt := rfl
@[simp] theorem State.advance_st : s.advance.st = s.st := rfl
@[simp] theorem State.advance_keys : s.advance.keys = s.keys := rfl
@[simp] theorem State.advance_ext : s.advance.ext = s.ext := rfl
@[simp] theorem State.advance_dirty : s.advance.dirty = s.dirty := rfl
@[simp] theorem State.advance_fb : s.advance.fb = s.fb := rfl
@[simp] theorem State.advance_mem : s.advance.mem = s.mem := rfl
@[simp] theorem State.advance_diag : s.advance.diag = s.diag := rfl
@[simp] theorem State.advance_lastDT : s.advance.lastDT = s.lastDT := rfl
@[simp] theorem State.advance_lastST : s.advance.lastST = s.lastST := rfl
@[simp] theorem State.advance_lastWord : s.advance.lastWord = s.lastWord := rfl
@[simp] theorem State.advance_cfg : s.advance.cfg = s.cfg := rfl
@[simp] theorem State.advance_rnd : s.advance.rnd = s.rnd := rfl
@[simp] theorem State.advance_draws : s.advance.draws = s.draws := rfl
@[simp] theorem State.advance_pending : s.advance.pending = s.pending := rfl
@[simp] theorem State.advance_loadResult : s.advance.loadResult = s.loadResult := rfl

/-! `State.skipIf` -/

@[simp] theorem State.skipIf_v (c : Bool) : (s.skipIf c).v = s.v := rfl
@[simp] theorem State.skipIf_i (c : Bool) : (s.skipIf c).i = s.i := rfl
@[simp] theorem State.skipIf_pc (c : Bool) : (s.skipIf c).pc = s.pc + (if c then 4 else 2) := rfl
@[simp] theorem State.skipIf_stack (c : Bool) : (s.skipIf c).stack = s.stack := rfl
@[simp] theorem State.skipIf_sp (c : Bool) : (s.skipIf c).sp = s.sp := rfl
@[simp] theorem State.skipIf_aux (c : Bool) : (s.skipIf c).aux = s.aux := rfl
@[simp] theorem State.skipIf_dt (c : Bool) : (s.skipIf c).dt = s.dt := rfl
@[simp] theorem State.skipIf_st (c : Bool) : (s.skipIf c).st = s.st := rfl
@[simp] theorem State.skipIf_keys (c : Bool) : (s.skipIf c).keys = s.keys := rfl
@[simp] theorem State.skipIf_ext (c : Bool) : (s.skipIf c).ext = s.ext := rfl
@[simp] theorem State.skipIf_dirty (c : Bool) : (s.skipIf c).dirty = s.dirty := rfl
@[simp] theorem State.skipIf_fb (c : Bool) : (s.skipIf c).fb = s.fb := rfl
@[simp] theorem State.skipIf_mem (c : Bool) : (s.skipIf c).mem = s.mem := rfl
@[simp] theorem State.skipIf_diag (c : Bool) : (s.skipIf c).diag = s.diag := rfl
@[simp] theorem State.skipIf_lastDT (c : Bool) : (s.skipIf c).lastDT = s.lastDT := rfl
@[simp] theorem State.skipIf_lastST (c : Bool) : (s.skipIf c).lastST = s.lastST := rfl
@[simp] theorem State.skipIf_lastWord (c : Bool) : (s.skipIf c).lastWord = s.lastWord := rfl
@[simp] theorem State.skipIf_cfg (c : Bool) : (s.skipIf c).cfg = s.cfg := rfl
@[simp] theorem State.skipIf_rnd (c : Bool) : (s.skipIf c).rnd = s.rnd := rfl
@[simp] theorem State.skipIf_draws (c : Bool) : (s.skipIf c).draws = s.draws := rfl
@[simp] theorem State.skipIf_pending (c : Bool) : (s.skipIf c).pending = s.pending := rfl
@[simp] theorem State.skipIf_loadResult (c : Bool) : (s.skipIf c).loadResult = s.loadResult := rfl

/-! `State.raise` -/

@[simp] theorem State.raise_v (k : Diag) : (s.raise k).v = s.v := rfl
@[simp] theorem State.raise_i (k : Diag) : (s.raise k).i = s.i := rfl
@[simp] theorem State.raise_pc (k : Diag) : (s.raise k).pc = s.pc := rfl
@[simp] theorem State.raise_stack (k : Diag) : (s.raise k).stack = s.stack := rfl
@[simp] theorem State.raise_sp (k : Diag) : (s.raise k).sp = s.sp := rfl
@[simp] theorem State.raise_aux (k : Diag) : (s.raise k).aux = s.aux := rfl
@[simp] theorem State.raise_dt (k : Diag) : (s.raise k).dt = s.dt := rfl
@[simp] theorem State.raise_st (k : Diag) : (s.raise k).st = s.st := rfl
@[simp] theorem State.raise_keys (k : Diag) : (s.raise k).keys = s.keys := rfl
@[simp] theorem State.raise_ext (k : Diag) : (s.raise k).ext = s.ext := rfl
@[simp] theorem State.raise_dirty (k : Diag) : (s.raise k).dirty = s.dirty := rfl
@[simp] theorem State.raise_fb (k : Diag) : (s.raise k).fb = s.fb := rfl
@[simp] theorem State.raise_mem (k : Diag) : (s.raise k).mem = s.mem := rfl
@[simp] theorem State.raise_diag (k : Diag) : (s.raise k).diag = s.diag ||| k.bit := rfl
@[simp] theorem State.raise_lastDT (k : Diag) : (s.raise k).lastDT = s.lastDT := rfl
@[simp] theorem State.raise_lastST (k : Diag) : (s.raise k).lastST = s.lastST := rfl
@[simp] theorem State.raise_lastWord (k : Diag) : (s.raise k).lastWord = s.lastWord := rfl
@[simp] theorem State.raise_cfg (k : Diag) : (s.raise k).cfg = s.cfg := rfl
@[simp] theorem State.raise_rnd (k : Diag) : (s.raise k).rnd = s.rnd := rfl
@[simp] theorem State.raise_draws (k : Diag) : (s.raise k).draws = s.draws := rfl
@[simp] theorem State.raise_pending (k : Diag) : (s.raise k).pending = s.pending := rfl
@[simp] theorem State.raise_loadResult (k : Diag) : (s.raise k).loadResult = s.loadResult := rfl

/-! `State.noteAddr` -/

@[simp] theorem State.noteAddr_v (a : Nat) : (s.noteAddr a).v = s.v := rfl
@[simp] theorem State.noteAddr_i (a : Nat) : (s.noteAddr a).i = s.i := rfl
@[simp] theorem State.noteAddr_pc (a : Nat) : (s.noteAddr a).pc = s.pc := rfl
@[simp] theorem State.noteAddr_stack (a : Nat) : (s.noteAddr a).stack = s.stack := rfl
@[simp] theorem State.noteAddr_sp (a : Nat) : (s.noteAddr a).sp = s.sp := rfl
@[simp] theorem State.noteAddr_aux (a : Nat) : (s.noteAddr a).aux = s.aux := rfl
@[simp] theorem State.noteAddr_dt (a : Nat) : (s.noteAddr a).dt = s.dt := rfl
@[simp] theorem State.noteAddr_st (a : Nat) : (s.noteAddr a).st = s.st := rfl
@[simp] theorem State.noteAddr_keys (a : Nat) : (s.noteAddr a).keys = s.keys := rfl
@[simp] theorem State.noteAddr_ext (a : Nat) : (s.noteAddr a).ext = s.ext := rfl
@[simp] theorem State.noteAddr_dirty (a : Nat) : (s.noteAddr a).dirty = s.dirty := rfl
@[simp] theorem State.noteAddr_fb (a : Nat) : (s.noteAddr a).fb = s.fb := rfl
@[simp] theorem State.noteAddr_mem (a : Nat) : (s.noteAddr a).mem = s.mem := rfl
@[simp] theorem State.noteAddr_diag (a : Nat) : (s.noteAddr a).diag = if 0xFFF < a then s.diag ||| Diag.addressOverflow.bit else s.diag := rfl
@[simp] theorem State.noteAddr_lastDT (a : Nat) : (s.noteAddr a).lastDT = s.lastDT := rfl
@[simp] theorem State.noteAddr_lastST (a : Nat) : (s.noteAddr a).lastST = s.lastST := rfl
@[simp] theorem State.noteAddr_lastWord (a : Nat) : (s.noteAddr a).lastWord = s.lastWord := rfl
@[simp] theorem State.noteAddr_cfg (a : Nat) : (s.noteAddr a).cfg = s.cfg := rfl
@[simp] theorem State.noteAddr_rnd (a : Nat) : (s.noteAddr a).rnd = s.rnd := rfl
@[simp] theorem State.noteAddr_draws (a : Nat) : (s.noteAddr a).draws = s.draws := rfl
@[simp] theorem State.noteAddr_pending (a : Nat) : (s.noteAddr a).pending = s.pending := rfl
@[simp] theorem State.noteAddr_loadResult (a : Nat) : (s.noteAddr a).loadResult = s.loadResult := rfl

/-! `State.memWrite` -/

@[simp] theorem State.memWrite_v (a : Nat) (b : Byte) : (s.memWrite a b).v = s.v := rfl
@[simp] theorem State.memWrite_i (a : Nat) (b : Byte) : (s.memWrite a b).i = s.i := rfl
@[simp] theorem State.memWrite_pc (a : Nat) (b : Byte) : (s.memWrite a b).pc = s.pc := rfl
@[simp] theorem State.memWrite_stack (a : Nat) (b : Byte) : (s.memWrite a b).stack = s.stack := rfl
@[simp] theorem State.memWrite_sp (a : Nat) (b : Byte) : (s.memWrite a b).sp = s.sp := rfl
@[simp] theorem State.memWrite_aux (a : Nat) (b : Byte) : (s.memWrite a b).aux = s.aux := rfl
@[simp] theorem State.memWrite_dt (a : Nat) (b : Byte) : (s.memWrite a b).dt = s.dt := rfl
@[simp] theorem State.memWrite_st (a : Nat) (b : Byte) : (s.memWrite a b).st = s.st := rfl
@[simp] theorem State.memWrite_keys (a : Nat) (b : Byte) : (s.memWrite a b).keys = s.keys := rfl
@[simp] theorem State.memWrite_ext (a : Nat) (b : Byte) : (s.memWrite a b).ext = s.ext := rfl
@[simp] theorem State.memWrite_dirty (a : Nat) (b : Byte) : (s.memWrite a b).dirty = s.dirty := rfl
@[simp] theorem State.memWrite_fb (a : Nat) (b : Byte) : (s.memWrite a b).fb = s.fb := rfl
@[simp] theorem State.memWrite_mem (a : Nat) (b : Byte) : (s.memWrite a b).mem = Memory.write s.cfg s.mem (a % memSize) b := rfl
@[simp] theorem State.memWrite_diag (a : Nat) (b : Byte) : (s.memWrite a b).diag = (s.noteAddr a).diag := rfl
@[simp] theorem State.memWrite_lastDT (a : Nat) (b : Byte) : (s.memWrite a b).lastDT = s.lastDT := rfl
@[simp] theorem State.memWrite_lastST (a : Nat) (b : Byte) : (s.memWrite a b).lastST = s.lastST := rfl
@[simp] theorem State.memWrite_lastWord (a : Nat) (b : Byte) : (s.memWrite a b).lastWord = s.lastWord := rfl
@[simp] theorem State.memWrite_cfg (a : Nat) (b : Byte) : (s.memWrite a b).cfg = s.cfg := rfl
@[simp] theorem State.memWrite_rnd (a : Nat) (b : Byte) : (s.memWrite a b).rnd = s.rnd := rfl
@[simp] theorem State.memWrite_draws (a : Nat) (b : Byte) : (s.memWrite a b).draws = s.draws := rfl
@[simp] theorem State.memWrite_pending (a : Nat) (b : Byte) : (s.memWrite a b).pending = s.pending := rfl
@[simp] theorem State.memWrite_loadResult (a : Nat) (b : Byte) : (s.memWrite a b).loadResult = s.loadResult := rfl

/-! `State.push` -/

@[simp] theorem State.push_v (a : Word) (h : s.sp.val < 16) : (s.push a h).v = s.v := rfl
@[simp] theorem State.push_i (a : Word) (h : s.sp.val < 16) : (s.push a h).i = s.i := rfl
@[simp] theorem State.push_pc (a : Word) (h : s.sp.val < 16) : (s.push a h).pc = s.pc := rfl
@[simp] theorem State.push_stack (a : Word) (h : s.sp.val < 16) : (s.push a h).stack = s.stack.set s.sp.val a h := rfl
@[simp] theorem State.push_sp (a : Word) (h : s.sp.val < 16) : (s.push a h).sp = ⟨s.sp.val + 1, by omega⟩ := rfl
@[simp] theorem State.push_aux (a : Word) (h : s.sp.val < 16) : (s.push a h).aux = s.aux := rfl
@[simp] theorem State.push_dt (a : Word) (h : s.sp.val < 16) : (s.push a h).dt = s.dt := rfl
@[simp] theorem State.push_st (a : Word) (h : s.sp.val < 16) : (s.push a h).st = s.st := rfl
@[simp] theorem State.push_keys (a : Word) (h : s.sp.val < 16) : (s.push a h).keys = s.keys := rfl
@[simp] theorem State.push_ext (a : Word) (h : s.sp.val < 16) : (s.push a h).ext = s.ext := rfl
@[simp] theorem State.push_dirty (a : Word) (h : s.sp.val < 16) : (s.push a h).dirty = s.dirty := rfl
@[simp] theorem State.push_fb (a : Word) (h : s.sp.val < 16) : (s.push a h).fb = s.fb := rfl
@[simp] theorem State.push_mem (a : Word) (h : s.sp.val < 16) : (s.push a h).mem = s.mem := rfl
@[simp] theorem State.push_diag (a : Word) (h : s.sp.val < 16) : (s.push a h).diag = s.diag := rfl
@[simp] theorem State.push_lastDT (a : Word) (h : s.sp.val < 16) : (s.push a h).lastDT = s.lastDT := rfl
@[simp] theorem State.push_lastST (a : Word) (h : s.sp.val < 16) : (s.push a h).lastST = s.lastST := rfl
@[simp] theorem State.push_lastWord (a : Word) (h : s.sp.val < 16) : (s.push a h).lastWord = s.lastWord := rfl
@[simp] theorem State.push_cfg (a : Word) (h : s.sp.val < 16) : (s.push a h).cfg = s.cfg := rfl
@[simp] theorem State.push_rnd (a : Word) (h : s.sp.val < 16) : (s.push a h).rnd = s.rnd := rfl
@[simp] theorem State.push_draws (a : Word) (h : s.sp.val < 16) : (s.push a h).draws = s.draws := rfl
@[simp] theorem State.push_pending (a : Word) (h : s.sp.val < 16) : (s.push a h).pending = s.pending := rfl
@[simp] theorem State.push_loadResult (a : Word) (h : s.sp.val < 16) : (s.push a h).loadResult = s.loadResult := rfl

/-! `State.pop` -/

@[simp] theorem State.pop_v : s.pop.v = s.v := rfl
@[simp] theorem State.pop_i : s.pop.i = s.i := rfl
@[simp] theorem State.pop_pc : s.pop.pc = s.pc := rfl
@[simp] theorem State.pop_stack : s.pop.stack = s.stack := rfl
@[simp] theorem State.pop_sp : s.pop.sp = ⟨s.sp.val - 1, by omega⟩ := rfl
@[simp] theorem State.pop_aux : s.pop.aux = s.aux := rfl
@[simp] theorem State.pop_dt : s.pop.dt = s.dt := rfl
@[simp] theorem State.pop_st : s.pop.st = s.st := rfl
@[simp] theorem State.pop_keys : s.pop.keys = s.keys := rfl
@[simp] theorem State.pop_ext : s.pop.ext = s.ext := rfl
@[simp] theorem State.pop_dirty : s.pop.dirty = s.dirty := rfl
@[simp] theorem State.pop_fb : s.pop.fb = s.fb := rfl
@[simp] theorem State.pop_mem : s.pop.mem = s.mem := rfl
@[simp] theorem State.pop_diag : s.pop.diag = s.diag := rfl
@[simp] theorem State.pop_lastDT : s.pop.lastDT = s.lastDT := rfl
@[simp] theorem State.pop_lastST : s.pop.lastST = s.lastST := rfl
@[simp] theorem State.pop_lastWord : s.pop.lastWord = s.lastWord := rfl
@[simp] theorem State.pop_cfg : s.pop.cfg = s.cfg := rfl
@[simp] theorem State.pop_rnd : s.pop.rnd = s.rnd := rfl
@[simp] theorem State.pop_draws : s.pop.draws = s.draws := rfl
@[simp] theorem State.pop_pending : s.pop.pending = s.pending := rfl
@[simp] theorem State.pop_loadResult : s.pop.loadResult = s.loadResult := rfl

/-! `State.setAux` -/

@[simp] theorem State.setAux_v (x : RegIdx) (b : Byte) : (s.setAux x b).v = s.v := rfl
@[simp] theorem State.setAux_i (x : RegIdx) (b : Byte) : (s.setAux x b).i = s.i := rfl
@[simp] theorem State.setAux_pc (x : RegIdx) (b : Byte) : (s.setAux x b).pc = s.pc := rfl
@[simp] theorem State.setAux_stack (x : RegIdx) (b : Byte) : (s.setAux x b).stack = s.stack := rfl
@[simp] theorem State.setAux_sp (x : RegIdx) (b : Byte) : (s.setAux x b).sp = s.sp := rfl
@[simp] theorem State.setAux_aux (x : RegIdx) (b : Byte) : (s.setAux x b).aux = s.aux.set x.toNat b x.isLt := rfl
@[simp] theorem State.setAux_dt (x : RegIdx) (b : Byte) : (s.setAux x b).dt = s.dt := rfl
@[simp] theorem State.setAux_st (x : RegIdx) (b : Byte) : (s.setAux x b).st = s.st := rfl
@[simp] theorem State.setAux_keys (x : RegIdx) (b : Byte) : (s.setAux x b).keys = s.keys := rfl
@[simp] theorem State.setAux_ext (x : RegIdx) (b : Byte) : (s.setAux x b).ext = s.ext := rfl
@[simp] theorem State.setAux_dirty (x : RegIdx) (b : Byte) : (s.setAux x b).dirty = s.dirty := rfl
@[simp] theorem State.setAux_fb (x : RegIdx) (b : Byte) : (s.setAux x b).fb = s.fb := rfl
@[simp] theorem State.setAux_mem (x : RegIdx) (b : Byte) : (s.setAux x b).mem = s.mem := rfl
@[simp] theorem State.setAux_diag (x : RegIdx) (b : Byte) : (s.setAux x b).diag = s.diag := rfl
@[simp] theorem State.setAux_lastDT (x : RegIdx) (b : Byte) : (s.setAux x b).lastDT = s.lastDT := rfl
@[simp] theorem State.setAux_lastST (x : RegIdx) (b : Byte) : (s.setAux x b).lastST = s.lastST := rfl
@[simp] theorem State.setAux_lastWord (x : RegIdx) (b : Byte) : (s.setAux x b).lastWord = s.lastWord := rfl
@[simp] theorem State.setAux_cfg (x : RegIdx) (b : Byte) : (s.setAux x b).cfg = s.cfg := rfl
@[simp] theorem State.setAux_rnd (x : RegIdx) (b : Byte) : (s.setAux x b).rnd = s.rnd := rfl
@[simp] theorem State.setAux_draws (x : RegIdx) (b : Byte) : (s.setAux x b).draws = s.draws := rfl
@[simp] theorem State.setAux_pending (x : RegIdx) (b : Byte) : (s.setAux x b).pending = s.pending := rfl
@[simp] theorem State.setAux_loadResult (x : RegIdx) (b : Byte) : (s.setAux x b).loadResult = s.loadResult := rfl

/-! `State.stepIndex` -/

@[simp] theorem State.stepIndex_v (x : RegIdx) : (s.stepIndex x).v = s.v := rfl
@[simp] theorem State.stepIndex_i (x : RegIdx) : (s.stepIndex x).i = if s.cfg.storeLoadIncrementsIndex then s.i + x.setWidth 16 + 1 else s.i := rfl
@[simp] theorem State.stepIndex_pc (x : RegIdx) : (s.stepIndex x).pc = s.pc := rfl
@[simp] theorem State.stepIndex_stack (x : RegIdx) : (s.stepIndex x).stack = s.stack := rfl
@[simp] theorem State.stepIndex_sp (x : RegIdx) : (s.stepIndex x).sp = s.sp := rfl
@[simp] theorem State.stepIndex_aux (x : RegIdx) : (s.stepIndex x).aux = s.aux := rfl
@[simp] theorem State.stepIndex_dt (x : RegIdx) : (s.stepIndex x).dt = s.dt := rfl
@[simp] theorem State.stepIndex_st (x : RegIdx) : (s.stepIndex x).st = s.st := rfl
@[simp] theorem State.stepIndex_keys (x : RegIdx) : (s.stepIndex x).keys = s.keys := rfl
@[simp] theorem State.stepIndex_ext (x : RegIdx) : (s.stepIndex x).ext = s.ext := rfl
@[simp] theorem State.stepIndex_dirty (x : RegIdx) : (s.stepIndex x).dirty = s.dirty := rfl
@[simp] theorem State.stepIndex_fb (x : RegIdx) : (s.stepIndex x).fb = s.fb := rfl
@[simp] theorem State.stepIndex_mem (x : RegIdx) : (s.stepIndex x).mem = s.mem := rfl
@[simp] theorem State.stepIndex_diag (x : RegIdx) : (s.stepIndex x).diag = s.diag := rfl
@[simp] theorem State.stepIndex_lastDT (x : RegIdx) : (s.stepIndex x).lastDT = s.lastDT := rfl
@[simp] theorem State.stepIndex_lastST (x : RegIdx) : (s.stepIndex x).lastST = s.lastST := rfl
@[simp] theorem State.stepIndex_lastWord (x : RegIdx) : (s.stepIndex x).lastWord = s.lastWord := rfl
@[simp] theorem State.stepIndex_cfg (x : RegIdx) : (s.stepIndex x).cfg = s.cfg := rfl
@[simp] theorem State.stepIndex_rnd (x : RegIdx) : (s.stepIndex x).rnd = s.rnd := rfl
@[simp] theorem State.stepIndex_draws (x : RegIdx) : (s.stepIndex x).draws = s.draws := rfl
@[simp] theorem State.stepIndex_pending (x : RegIdx) : (s.stepIndex x).pending = s.pending := rfl
@[simp] theorem State.stepIndex_loadResult (x : RegIdx) : (s.stepIndex x).loadResult = s.loadResult := rfl

/-! `State.showFrame` -/

@[simp] theorem State.showFrame_v (f : Frame) : (s.showFrame f).v = s.v := rfl
@[simp] theorem State.showFrame_i (f : Frame) : (s.showFrame f).i = s.i := rfl
@[simp] theorem State.showFrame_pc (f : Frame) : (s.showFrame f).pc = s.pc := rfl
@[simp] theorem State.showFrame_stack (f : Frame) : (s.showFrame f).stack = s.stack := rfl
@[simp] theorem State.showFrame_sp (f : Frame) : (s.showFrame f).sp = s.sp := rfl
@[simp] theorem State.showFrame_aux (f : Frame) : (s.showFrame f).aux = s.aux := rfl
@[simp] theorem State.showFrame_dt (f : Frame) : (s.showFrame f).dt = s.dt := rfl
@[simp] theorem State.showFrame_st (f : Frame) : (s.showFrame f).st = s.st := rfl
@[simp] theorem State.showFrame_keys (f : Frame) : (s.showFrame f).keys = s.keys := rfl
@[simp] theorem State.showFrame_ext (f : Frame) : (s.showFrame f).ext = s.ext := rfl
@[simp] theorem State.showFrame_dirty (f : Frame) : (s.showFrame f).dirty = true := rfl
@[simp] theorem State.showFrame_fb (f : Frame) : (s.showFrame f).fb = f := rfl
@[simp] theorem State.showFrame_mem (f : Frame) : (s.showFrame f).mem = s.mem := rfl
@[simp] theorem State.showFrame_diag (f : Frame) : (s.showFrame f).diag = s.diag := rfl
@[simp] theorem State.showFrame_lastDT (f : Frame) : (s.showFrame f).lastDT = s.lastDT := rfl
@[simp] theorem State.showFrame_lastST (f : Frame) : (s.showFrame f).lastST = s.lastST := rfl
@[simp] theorem State.showFrame_lastWord (f : Frame) : (s.showFrame f).lastWord = s.lastWord := rfl
@[simp] theorem State.showFrame_cfg (f : Frame) : (s.showFrame f).cfg = s.cfg := rfl
@[simp] theorem State.showFrame_rnd (f : Frame) : (s.showFrame f).rnd = s.rnd := rfl
@[simp] theorem State.showFrame_draws (f : Frame) : (s.showFrame f).draws = s.draws := rfl
@[simp] theorem State.showFrame_pending (f : Frame) : (s.showFrame f).pending = s.pending := rfl
@[simp] theorem State.showFrame_loadResult (f : Frame) : (s.showFrame f).loadResult = s.loadResult := rfl

/-! `State.setMode` -/

@[simp] theorem State.setMode_v (e : Bool) : (s.setMode e).v = s.v := rfl
@[simp] theorem State.setMode_i (e : Bool) : (s.setMode e).i = s.i := rfl
@[simp] theorem State.setMode_pc (e : Bool) : (s.setMode e).pc = s.pc := rfl
@[simp] theorem State.setMode_stack (e : Bool) : (s.setMode e).stack = s.stack := rfl
@[simp] theorem State.setMode_sp (e : Bool) : (s.setMode e).sp = s.sp := rfl
@[simp] theorem State.setMode_aux (e : Bool) : (s.setMode e).aux = s.aux := rfl
@[simp] theorem State.setMode_dt (e : Bool) : (s.setMode e).dt = s.dt := rfl
@[simp] theorem State.setMode_st (e : Bool) : (s.setMode e).st = s.st := rfl
@[simp] theorem State.setMode_keys (e : Bool) : (s.setMode e).keys = s.keys := rfl
@[simp] theorem State.setMode_ext (e : Bool) : (s.setMode e).ext = e := rfl
@[simp] theorem State.setMode_dirty (e : Bool) : (s.setMode e).dirty = true := rfl
@[simp] theorem State.setMode_fb (e : Bool) : (s.setMode e).fb = Frame.clear := rfl
@[simp] theorem State.setMode_mem (e : Bool) : (s.setMode e).mem = s.mem := rfl
@[simp] theorem State.setMode_diag (e : Bool) : (s.setMode e).diag = s.diag := rfl
@[simp] theorem State.setMode_lastDT (e : Bool) : (s.setMode e).lastDT = s.lastDT := rfl
@[simp] theorem State.setMode_lastST (e : Bool) : (s.setMode e).lastST = s.lastST := rfl
@[simp] theorem State.setMode_lastWord (e : Bool) : (s.setMode e).lastWord = s.lastWord := rfl
@[simp] theorem State.setMode_cfg (e : Bool) : (s.setMode e).cfg = s.cfg := rfl
@[simp] theorem State.setMode_rnd (e : Bool) : (s.setMode e).rnd = s.rnd := rfl
@[simp] theorem State.setMode_draws (e : Bool) : (s.setMode e).draws = s.draws := rfl
@[simp] theorem State.setMode_pending (e : Bool) : (s.setMode e).pending = s.pending := rfl
@[simp] theorem State.setMode_loadResult (e : Bool) : (s.setMode e).loadResult = s.loadResult := rfl

/-! `State.setFlag` -/

@[simp] theorem State.setFlag_v (c : Bool) : (s.setFlag c).v = s.v.set vf.toNat (flagByte c) vf.isLt := rfl
@[simp] theorem State.setFlag_i (c : Bool) : (s.setFlag c).i = s.i := rfl
@[simp] theorem State.setFlag_pc (c : Bool) : (s.setFlag c).pc = s.pc := rfl
@[simp] theorem State.setFlag_stack (c : Bool) : (s.setFlag c).stack = s.stack := rfl
@[simp] theorem State.setFlag_sp (c : Bool) : (s.setFlag c).sp = s.sp := rfl
@[simp] theorem State.setFlag_aux (c : Bool) : (s.setFlag c).aux = s.aux := rfl
@[simp] theorem State.setFlag_dt (c : Bool) : (s.setFlag c).dt = s.dt := rfl
@[simp] theorem State.setFlag_st (c : Bool) : (s.setFlag c).st = s.st := rfl
@[simp] theorem State.setFlag_keys (c : Bool) : (s.setFlag c).keys = s.keys := rfl
@[simp] theorem State.setFlag_ext (c : Bool) : (s.setFlag c).ext = s.ext := rfl
@[simp] theorem State.setFlag_dirty (c : Bool) : (s.setFlag c).dirty = s.dirty := rfl
@[simp] theorem State.setFlag_fb (c : Bool) : (s.setFlag c).fb = s.fb := rfl
@[simp] theorem State.setFlag_mem (c : Bool) : (s.setFlag c).mem = s.mem := rfl
@[simp] theorem State.setFlag_diag (c : Bool) : (s.setFlag c).diag = s.diag := rfl
@[simp] theorem State.setFlag_lastDT (c : Bool) : (s.setFlag c).lastDT = s.lastDT := rfl
@[simp] theorem State.setFlag_lastST (c : Bool) : (s.setFlag c).lastST = s.lastST := rfl
@[simp] theorem State.setFlag_lastWord (c : Bool) : (s.setFlag c).lastWord = s.lastWord := rfl
@[simp] theorem State.setFlag_cfg (c : Bool) : (s.setFlag c).cfg = s.cfg := rfl
@[simp] theorem State.setFlag_rnd (c : Bool) : (s.setFlag c).rnd = s.rnd := rfl
@[simp] theorem State.setFlag_draws (c : Bool) : (s.setFlag c).draws = s.draws := rfl
@[simp] theorem State.setFlag_pending (c : Bool) : (s.setFlag c).pending = s.pending := rfl
@[simp] theorem State.setFlag_loadResult (c : Bool) : (s.setFlag c).loadResult = s.loadResult := rfl

/-! `State.tickDT` -/

@[simp] theorem State.tickDT_v : s.tickDT.v = s.v := rfl
@[simp] theorem State.tickDT_i : s.tickDT.i = s.i := rfl
@[simp] theorem State.tickDT_pc : s.tickDT.pc = s.pc := rfl
@[simp] theorem State.tickDT_stack : s.tickDT.stack = s.stack := rfl
@[simp] theorem State.tickDT_sp : s.tickDT.sp = s.sp := rfl
@[simp] theorem State.tickDT_aux : s.tickDT.aux = s.aux := rfl
@[simp] theorem State.tickDT_dt : s.tickDT.dt = decay s.dt := rfl
@[simp] theorem State.tickDT_st : s.tickDT.st = s.st := rfl
@[simp] theorem State.tickDT_keys : s.tickDT.keys = s.keys := rfl
@[simp] theorem State.tickDT_ext : s.tickDT.ext = s.ext := rfl
@[simp] theorem State.tickDT_dirty : s.tickDT.dirty = s.dirty := rfl
@[simp] theorem State.tickDT_fb : s.tickDT.fb = s.fb := rfl
@[simp] theorem State.tickDT_mem : s.tickDT.mem = s.mem := rfl
@[simp] theorem State.tickDT_diag : s.tickDT.diag = s.diag := rfl
@[simp] theorem State.tickDT_lastDT : s.tickDT.lastDT = s.lastDT := rfl
@[simp] theorem State.tickDT_lastST : s.tickDT.lastST = s.lastST := rfl
@[simp] theorem State.tickDT_lastWord : s.tickDT.lastWord = s.lastWord := rfl
@[simp] theorem State.tickDT_cfg : s.tickDT.cfg = s.cfg := rfl
@[simp] theorem State.tickDT_rnd : s.tickDT.rnd = s.rnd := rfl
@[simp] theorem State.tickDT_draws : s.tickDT.draws = s.draws := rfl
@[simp] theorem State.tickDT_pending : s.tickDT.pending = s.pending := rfl
@[simp] theorem State.tickDT_loadResult : s.tickDT.loadResult = s.loadResult := rfl

/-! `State.tickST` -/

@[simp] theorem State.tickST_v : s.tickST.v = s.v := rfl
@[simp] theorem State.tickST_i : s.tickST.i = s.i := rfl
@[simp] theorem State.tickST_pc : s.tickST.pc = s.pc := rfl
@[simp] theorem State.tickST_stack : s.tickST.stack = s.stack := rfl
@[simp] theorem State.tickST_sp : s.tickST.sp = s.sp := rfl
@[simp] theorem State.tickST_aux : s.tickST.aux = s.aux := rfl
@[simp] theorem State.tickST_dt : s.tickST.dt = s.dt := rfl
@[simp] theorem State.tickST_st : s.tickST.st = decay s.st := rfl
@[simp] theorem State.tickST_keys : s.tickST.keys = s.keys := rfl
@[simp] theorem State.tickST_ext : s.tickST.ext = s.ext := rfl
@[simp] theorem State.tickST_dirty : s.tickST.dirty = s.dirty := rfl
@[simp] theorem State.tickST_fb : s.tickST.fb = s.fb := rfl
@[simp] theorem State.tickST_mem : s.tickST.mem = s.mem := rfl
@[simp] theorem State.tickST_diag : s.tickST.diag = s.diag := rfl
@[simp] theorem State.tickST_lastDT : s.tickST.lastDT = s.lastDT := rfl
@[simp] theorem State.tickST_lastST : s.tickST.lastST = s.lastST := rfl
@[simp] theorem State.tickST_lastWord : s.tickST.lastWord = s.lastWord := rfl
@[simp] theorem State.tickST_cfg : s.tickST.cfg = s.cfg := rfl
@[simp] theorem State.tickST_rnd : s.tickST.rnd = s.rnd := rfl
@[simp] theorem State.tickST_draws : s.tickST.draws = s.draws := rfl
@[simp] theorem State.tickST_pending : s.tickST.pending = s.pending := rfl
@[simp] theorem State.tickST_loadResult : s.tickST.loadResult = s.loadResult := rfl

/-! `State.setKey` -/

@[simp] theorem State.setKey_v (k : BitVec 4) (p : Bool) : (s.setKey k p).v = s.v := rfl
@[simp] theorem State.setKey_i (k : BitVec 4) (p : Bool) : (s.setKey k p).i = s.i := rfl
@[simp] theorem State.setKey_pc (k : BitVec 4) (p : Bool) : (s.setKey k p).pc = s.pc := rfl
@[simp] theorem State.setKey_stack (k : BitVec 4) (p : Bool) : (s.setKey k p).stack = s.stack := rfl
@[simp] theorem State.setKey_sp (k : BitVec 4) (p : Bool) : (s.setKey k p).sp = s.sp := rfl
@[simp] theorem State.setKey_aux (k : BitVec 4) (p : Bool) : (s.setKey k p).aux = s.aux := rfl
@[simp] theorem State.setKey_dt (k : BitVec 4) (p : Bool) : (s.setKey k p).dt = s.dt := rfl
@[simp] theorem State.setKey_st (k : BitVec 4) (p : Bool) : (s.setKey k p).st = s.st := rfl
@[simp] theorem State.setKey_keys (k : BitVec 4) (p : Bool) : (s.setKey k p).keys = s.keys.set k.toNat p k.isLt := rfl
@[simp] theorem State.setKey_ext (k : BitVec 4) (p : Bool) : (s.setKey k p).ext = s.ext := rfl
@[simp] theorem State.setKey_dirty (k : BitVec 4) (p : Bool) : (s.setKey k p).dirty = s.dirty := rfl
@[simp] theorem State.setKey_fb (k : BitVec 4) (p : Bool) : (s.setKey k p).fb = s.fb := rfl
@[simp] theorem State.setKey_mem (k : BitVec 4) (p : Bool) : (s.setKey k p).mem = s.mem := rfl
@[simp] theorem State.setKey_diag (k : BitVec 4) (p : Bool) : (s.setKey k p).diag = s.diag := rfl
@[simp] theorem State.setKey_lastDT (k : BitVec 4) (p : Bool) : (s.setKey k p).lastDT = s.lastDT := rfl
@[simp] theorem State.setKey_lastST (k : BitVec 4) (p : Bool) : (s.setKey k p).lastST = s.lastST := rfl
@[simp] theorem State.setKey_lastWord (k : BitVec 4) (p : Bool) : (s.setKey k p).lastWord = s.lastWord := rfl
@[simp] theorem State.setKey_cfg (k : BitVec 4) (p : Bool) : (s.setKey k p).cfg = s.cfg := rfl
@[simp] theorem State.setKey_rnd (k : BitVec 4) (p : Bool) : (s.setKey k p).rnd = s.rnd := rfl
@[simp] theorem State.setKey_draws (k : BitVec 4) (p : Bool) : (s.setKey k p).draws = s.draws := rfl
@[simp] theorem State.setKey_pending (k : BitVec 4) (p : Bool) : (s.setKey k p).pending = s.pending := rfl
@[simp] theorem State.setKey_loadResult (k : BitVec 4) (p : Bool) : (s.setKey k p).loadResult = s.loadResult := rfl

/-! `State.consumeFrame` -/

@[simp] theorem State.consumeFrame_v : s.consumeFrame.v = s.v := rfl
@[simp] theorem State.consumeFrame_i : s.consumeFrame.i = s.i := rfl
@[simp] theorem State.consumeFrame_pc : s.consumeFrame.pc = s.pc := rfl
@[simp] theorem State.consumeFrame_stack : s.consumeFrame.stack = s.stack := rfl
@[simp] theorem State.consumeFrame_sp : s.consumeFrame.sp = s.sp := rfl
@[simp] theorem State.consumeFrame_aux : s.consumeFrame.aux = s.aux := rfl
@[simp] theorem State.consumeFrame_dt : s.consumeFrame.dt = s.dt := rfl
@[simp] theorem State.consumeFrame_st : s.consumeFrame.st = s.st := rfl
@[simp] theorem State.consumeFrame_keys : s.consumeFrame.keys = s.keys := rfl
@[simp] theorem State.consumeFrame_ext : s.consumeFrame.ext = s.ext := rfl
@[simp] theorem State.consumeFrame_dirty : s.consumeFrame.dirty = false := rfl
@[simp] theorem State.consumeFrame_fb : s.consumeFrame.fb = s.fb := rfl
@[simp] theorem State.consumeFrame_mem : s.consumeFrame.mem = s.mem := rfl
@[simp] theorem State.consumeFrame_diag : s.consumeFrame.diag = s.diag := rfl
@[simp] theorem State.consumeFrame_lastDT : s.consumeFrame.lastDT = s.lastDT := rfl
@[simp] theorem State.consumeFrame_lastST : s.consumeFrame.lastST = s.lastST := rfl
@[simp] theorem State.consumeFrame_lastWord : s.consumeFrame.lastWord = s.lastWord := rfl
@[simp] theorem State.consumeFrame_cfg : s.consumeFrame.cfg = s.cfg := rfl
@[simp] theorem State.consumeFrame_rnd : s.consumeFrame.rnd = s.rnd := rfl
@[simp] theorem State.consumeFrame_draws : s.consumeFrame.draws = s.draws := rfl
@[simp] theorem State.consumeFrame_pending : s.consumeFrame.pending = s.pending := rfl
@[simp] theorem State.consumeFrame_loadResult : s.consumeFrame.loadResult = s.loadResult := rfl

/-! Reading registers, auxiliary registers and keys. -/

@[simp] theorem State.reg_setReg (x y : RegIdx) (b : Byte) :
    (s.setReg x b).reg y = if y = x then b else s.reg y := by
  simp only [State.reg, State.setReg, Vector.getElem_set, BitVec.toNat_inj, eq_comm (a := y)]

@[simp] theorem State.auxReg_setAux (x y : RegIdx) (b : Byte) :
    (s.setAux x b).auxReg y = if y = x then b else s.auxReg y := by
  simp only [State.auxReg, State.setAux, Vector.getElem_set, BitVec.toNat_inj, eq_comm (a := y)]

@[simp] theorem State.key_setKey (k j : BitVec 4) (p : Bool) :
    (s.setKey k p).key j = if j = k then p else s.key j := by
  simp only [State.key, State.setKey, Vector.getElem_set, BitVec.toNat_inj, eq_comm (a := j)]

/-- A register read depends on the register file alone. -/
theorem State.reg_congr {s t : State} (h : t.v = s.v) (x : RegIdx) : t.reg x = s.reg x := by
  simp only [State.reg, h]

/-- A memory read depends on the configuration and the listed cells alone. -/
theorem State.readByte_congr {s t : State} (hq : t.cfg = s.cfg) (hm : t.mem = s.mem) (a : Nat) :
    t.readByte a = s.readByte a := by
  simp only [State.readByte, hq, hm]

@[simp] theorem State.reg_setFlag (c : Bool) (y : RegIdx) :
    (s.setFlag c).reg y = if y = vf then flagByte c else s.reg y := by
  simp [State.setFlag]

@[simp] theorem State.reg_advance (x : RegIdx) : s.advance.reg x = s.reg x := rfl

/-- R90: VF ends as the flag, the destination as the result where it is not VF. -/
@[simp] theorem State.reg_setResultFlag (x y : RegIdx) (b : Byte) (c : Bool) :
    (s.setResultFlag x b c).reg y = if y = vf then flagByte c else if y = x then b else s.reg y := by
  simp [State.setResultFlag]

end Sys2Proof.Machine
end

