-- ==== Sys2Proof/Laws/Memory.lean ====
section
/-! SUPPORT. Memory: a read after a write, and that every memory operation keeps the canonical form. -/

namespace Sys2Proof.Machine

variable (q : Config) (m : Memory)

theorem Memory.find_insert (a b : Nat) (v : Byte) :
    Memory.find (Memory.insert m a v) b = if b = a then some v else Memory.find m b := by
  induction m with
  | nil => simp [Memory.insert, Memory.find]
  | cons c m ih =>
    obtain ⟨k, w⟩ := c
    simp only [Memory.insert]
    split
    · simp [Memory.find]
    · split
      · subst_vars
        simp only [Memory.find]
        split <;> rfl
      · simp only [Memory.find, ih]
        split
        · rw [if_neg (by omega)]
        · rfl

theorem Memory.find_erase (a b : Nat) :
    Memory.find (Memory.erase m a) b = if b = a then none else Memory.find m b := by
  induction m with
  | nil => simp [Memory.erase, Memory.find]
  | cons c m ih =>
    obtain ⟨k, w⟩ := c
    simp only [Memory.erase, List.filter] at ih ⊢
    by_cases hk : k = a
    · subst hk
      simp only [bne_self_eq_false, ih, Memory.find]
      split <;> rfl
    · simp only [bne_iff_ne.mpr hk, Memory.find, ih]
      split
      · rw [if_neg (by omega)]
      · rfl

/-- A write changes exactly one cell (R34), whatever the form of the list. -/
theorem Memory.read_write (a b : Nat) (v : Byte) :
    Memory.read q (Memory.write q m a v) b = if b = a then v else Memory.read q m b := by
  simp only [Memory.read, Memory.write]
  split
  · rw [Memory.find_erase]
    split
    · simp_all
    · rfl
  · rw [Memory.find_insert]
    split <;> rfl

/-- The addresses an insertion leaves: the new one and old ones. -/
theorem Memory.mem_insert {c : Host.Cell} {a : Nat} {v : Byte} (h : c ∈ Memory.insert m a v) :
    c = (a, v) ∨ c ∈ m := by
  induction m with
  | nil => simpa [Memory.insert] using h
  | cons d m ih =>
    obtain ⟨k, w⟩ := d
    simp only [Memory.insert] at h
    split at h
    · simpa using h
    · split at h
      · simp only [List.mem_cons] at h ⊢; tauto
      · simp only [List.mem_cons] at h ⊢; tauto

theorem Memory.insert_sorted (a : Nat) (v : Byte) (h : m.Pairwise fun c d => c.1 < d.1) :
    (Memory.insert m a v).Pairwise fun c d => c.1 < d.1 := by
  induction m with
  | nil => simp [Memory.insert]
  | cons d m ih =>
    obtain ⟨k, w⟩ := d
    obtain ⟨hk, hm⟩ := List.pairwise_cons.mp h
    simp only [Memory.insert]
    split
    · refine List.pairwise_cons.mpr ⟨fun c hc => ?_, h⟩
      rcases List.mem_cons.mp hc with rfl | hc
      · assumption
      · exact Nat.lt_trans ‹_› (hk c hc)
    · split
      · subst_vars
        exact List.pairwise_cons.mpr ⟨hk, hm⟩
      · refine List.pairwise_cons.mpr ⟨fun c hc => ?_, ih hm⟩
        rcases Memory.mem_insert m hc with rfl | hc
        · show k < a
          omega
        · exact hk c hc

/-- A write inside 0..4095 keeps the canonical form. -/
theorem Memory.wf_write {a : Nat} (v : Byte) (ha : a < memSize) (h : Memory.wf q m) :
    Memory.wf q (Memory.write q m a v) := by
  unfold Memory.write
  split
  · exact ⟨h.1.filter _, fun c hc => h.2 c (List.mem_filter.mp hc).1⟩
  · refine ⟨Memory.insert_sorted m a v h.1, fun c hc => ?_⟩
    rcases Memory.mem_insert m hc with rfl | hc
    · exact ⟨ha, ‹_›⟩
    · exact h.2 c hc

/-- A load that fits keeps the canonical form. -/
theorem Memory.wf_writeAll (a : Nat) (bs : List Byte) (ha : a + bs.length ≤ memSize) (h : Memory.wf q m) :
    Memory.wf q (Memory.writeAll q m a bs) := by
  induction bs generalizing m a with
  | nil => exact h
  | cons b bs ih =>
    simp only [List.length_cons] at ha
    exact ih _ (a + 1) (by omega) (Memory.wf_write q m b (by omega) h)

/-- Nothing listed is the canonical form of the reset contents. -/
theorem Memory.wf_nil : Memory.wf q [] := by
  simp [Memory.wf]

/-- What a load leaves in memory (R189). -/
theorem Memory.read_writeAll (a : Nat) (bs : List Byte) (b : Nat) :
    Memory.read q (Memory.writeAll q m a bs) b =
      if a ≤ b then (bs[b - a]?).getD (Memory.read q m b) else Memory.read q m b := by
  induction bs generalizing m a with
  | nil => simp [Memory.writeAll]
  | cons v bs ih =>
    rw [Memory.writeAll, ih]
    by_cases h1 : a + 1 ≤ b
    · obtain ⟨k, rfl⟩ : ∃ k, b = a + 1 + k := ⟨b - (a + 1), by omega⟩
      rw [if_pos h1, if_pos (by omega : a ≤ a + 1 + k), Memory.read_write, if_neg (by omega)]
      rw [show a + 1 + k - a = k + 1 by omega, show a + 1 + k - (a + 1) = k by omega, List.getElem?_cons_succ]
    · rw [if_neg h1, Memory.read_write]
      by_cases h2 : b = a
      · subst h2; simp
      · rw [if_neg h2, if_neg (by omega)]

/-- The reset contents of a cell no large font byte is installed at (R202). -/
theorem resetByte_outside {a : Nat} (ha : a < memSize)
    (hn : ∀ i < 160, (q.bigFontBase.toNat + i) % memSize ≠ a) :
    resetByte q a = if h : a < 80 then q.fontSmall[a] else 0 := by
  have hb := q.bigFontBase.isLt
  unfold resetByte
  refine dif_neg fun hk => hn _ hk ?_
  simp only [memSize] at ha ⊢
  omega

/-- The reset contents of the cell a large font byte is installed at (R202). -/
theorem resetByte_large {i : Nat} (hi : i < 160) : resetByte q (q.bigFontBase.toNat + i) = q.fontLarge[i] := by
  have hb := q.bigFontBase.isLt
  have hk : (q.bigFontBase.toNat + i + memSize - q.bigFontBase.toNat) % memSize = i := by
    simp only [memSize]; omega
  unfold resetByte
  simp only [hk]
  exact dif_pos hi

/-- The byte a program reads back after a write: the written one at every address that is the same modulo 4096, and the
old one elsewhere (R33, R34). -/
theorem State.readByte_memWrite (s : State) (a b : Nat) (v : Byte) :
    (s.memWrite a v).readByte b = if b % memSize = a % memSize then v else s.readByte b := by
  simp only [State.readByte, State.memWrite_mem, State.memWrite_cfg, Memory.read_write]

theorem State.memWrite_wf (s : State) (a : Nat) (v : Byte) (h : Memory.wf s.cfg s.mem) :
    Memory.wf (s.memWrite a v).cfg (s.memWrite a v).mem :=
  Memory.wf_write _ _ v (Nat.mod_lt _ (by decide)) h

end Sys2Proof.Machine
end

