-- ==== Sys2Proof/Laws/Ops.lean ====
section
/-! SUPPORT. What each shared operation does, said once: the proofs about instructions cite these and do not unfold the
operations again. -/

namespace Sys2Proof.Machine

variable (s : State)

/-- The diagnostics of a range of addresses change DIAG alone, and raise `AddressOverflow` exactly when the highest address
exceeds 0xFFF (R171). -/
theorem State.noteReads_eq (base n : Nat) :
    s.noteReads base n = { s with diag := diagAfter s.diag base n } := by
  induction n with
  | zero => simp [State.noteReads, diagAfter]
  | succ n ih =>
    simp only [State.noteReads, ih, State.noteAddr, diagAfter, Diag.bit, Nat.add_sub_cancel]
    by_cases h1 : 0xFFF < base + n
    · by_cases h2 : 0 < n ∧ 0xFFF < base + (n - 1)
      · simp [h1, h2, BitVec.or_assoc]
      · simp [h1, h2]
    · rw [if_neg h1, if_neg (by omega), if_neg (by omega)]

/-- A register transfer to memory changes memory and DIAG alone. -/
theorem State.storeRegs_eq (base n : Nat) :
    s.storeRegs base n = { s with mem := (s.storeRegs base n).mem, diag := diagAfter s.diag base n } := by
  suffices h : s.storeRegs base n = { s.noteReads base n with mem := (s.storeRegs base n).mem } by
    rw [State.noteReads_eq] at h
    exact h
  induction n with
  | zero => rfl
  | succ n ih =>
    simp only [State.storeRegs, State.noteReads]
    rw [ih]
    rfl

/-- What a byte of memory reads as after a register transfer of at most 16 registers (R115). -/
theorem State.readByte_storeRegs (base n a : Nat) (hn : n ≤ 16) :
    (∀ k < n, a % memSize = (base + k) % memSize →
      (s.storeRegs base n).readByte a = s.reg (BitVec.ofNat 4 k)) ∧
    ((∀ k < n, a % memSize ≠ (base + k) % memSize) → (s.storeRegs base n).readByte a = s.readByte a) := by
  induction n with
  | zero => exact ⟨fun k hk => absurd hk (by omega), fun _ => rfl⟩
  | succ n ih =>
    obtain ⟨ih1, ih2⟩ := ih (by omega)
    simp only [State.storeRegs, State.readByte_memWrite]
    refine ⟨fun k hk h => ?_, fun h => ?_⟩
    · by_cases hkn : k = n
      · subst hkn; rw [if_pos h]
      · rw [if_neg (by simp only [memSize] at *; omega)]
        exact ih1 k (by omega) h
    · rw [if_neg (h n (by omega))]
      exact ih2 fun k hk => h k (by omega)

theorem State.storeRegs_wf (base n : Nat) (h : Memory.wf s.cfg s.mem) : Memory.wf s.cfg (s.storeRegs base n).mem := by
  induction n with
  | zero => exact h
  | succ n ih =>
    have hc : (s.storeRegs base n).cfg = s.cfg := by rw [State.storeRegs_eq]
    have := State.memWrite_wf (s.storeRegs base n) (base + n) (s.reg (BitVec.ofNat 4 n)) (by rw [hc]; exact ih)
    rw [State.memWrite_cfg, hc] at this
    exact this

/-- A register transfer from memory changes the general registers and DIAG alone. -/
theorem State.loadRegs_eq (base n : Nat) :
    s.loadRegs base n = { s with v := (s.loadRegs base n).v, diag := diagAfter s.diag base n } := by
  suffices h : s.loadRegs base n = { s.noteReads base n with v := (s.loadRegs base n).v } by
    rw [State.noteReads_eq] at h
    exact h
  induction n with
  | zero => rfl
  | succ n ih =>
    simp only [State.loadRegs, State.noteReads]
    rw [ih]
    rfl

theorem regIdx_ofNat_eq_iff (r : RegIdx) (n : Nat) (hn : n < 16) : r = BitVec.ofNat 4 n ↔ r.toNat = n := by
  rw [← BitVec.toNat_inj, BitVec.toNat_ofNat, Nat.mod_eq_of_lt (by simpa using hn)]

/-- A register after a transfer of the first `n` from memory (R116). -/
theorem State.reg_loadRegs (base n : Nat) (r : RegIdx) (hn : n ≤ 16) :
    (s.loadRegs base n).reg r = if r.toNat < n then s.readByte (base + r.toNat) else s.reg r := by
  induction n with
  | zero => rfl
  | succ n ih =>
    simp only [State.loadRegs, State.reg_setReg, regIdx_ofNat_eq_iff r n (by omega)]
    by_cases h : r.toNat = n
    · rw [if_pos h, if_pos (by omega), h]
    · rw [if_neg h, State.reg_congr (State.noteAddr_v _ _), ih (by omega)]
      by_cases h2 : r.toNat < n
      · rw [if_pos h2, if_pos (by omega)]
      · rw [if_neg h2, if_neg (by omega)]

/-- A transfer to the auxiliary registers changes them alone. -/
theorem State.storeAux_eq (n : Nat) : s.storeAux n = { s with aux := (s.storeAux n).aux } := by
  induction n with
  | zero => rfl
  | succ n ih =>
    simp only [State.storeAux]
    rw [ih]
    rfl

/-- An auxiliary register after a transfer of the first `n` (R117). -/
theorem State.auxReg_storeAux (n : Nat) (r : RegIdx) (hn : n ≤ 16) :
    (s.storeAux n).auxReg r = if r.toNat < n then s.reg r else s.auxReg r := by
  induction n with
  | zero => rfl
  | succ n ih =>
    simp only [State.storeAux, State.auxReg_setAux, regIdx_ofNat_eq_iff r n (by omega)]
    by_cases h : r.toNat = n
    · rw [if_pos h, if_pos (by omega), (regIdx_ofNat_eq_iff r n (by omega)).mpr h]
    · rw [if_neg h, ih (by omega)]
      by_cases h2 : r.toNat < n
      · rw [if_pos h2, if_pos (by omega)]
      · rw [if_neg h2, if_neg (by omega)]

/-- A transfer from the auxiliary registers changes the general registers alone. -/
theorem State.loadAux_eq (n : Nat) : s.loadAux n = { s with v := (s.loadAux n).v } := by
  induction n with
  | zero => rfl
  | succ n ih =>
    simp only [State.loadAux]
    rw [ih]
    rfl

/-- A register after a transfer of the first `n` from the auxiliary registers (R118). -/
theorem State.reg_loadAux (n : Nat) (r : RegIdx) (hn : n ≤ 16) :
    (s.loadAux n).reg r = if r.toNat < n then s.auxReg r else s.reg r := by
  induction n with
  | zero => rfl
  | succ n ih =>
    simp only [State.loadAux, State.reg_setReg, regIdx_ofNat_eq_iff r n (by omega)]
    by_cases h : r.toNat = n
    · rw [if_pos h, if_pos (by omega), (regIdx_ofNat_eq_iff r n (by omega)).mpr h]
    · rw [if_neg h, ih (by omega)]
      by_cases h2 : r.toNat < n
      · rw [if_pos h2, if_pos (by omega)]
      · rw [if_neg h2, if_neg (by omega)]

/-- The start of a step changes DIAG, LAST_WORD and the `rnd` port alone (R56). -/
theorem State.beginStep_eq (rnd : Byte) :
    s.beginStep rnd =
      { s with diag := diagAfter 0 s.pc.toNat 2, lastWord := s.fetchWord, rnd := rnd } := by
  simp only [State.beginStep, State.noteReads_eq]

/-- The invariant depends on memory, the configuration, the mode and the buffer alone. -/
theorem State.Inv.congr {s t : State} (h : s.Inv) (hc : t.cfg = s.cfg) (hm : t.mem = s.mem) (he : t.ext = s.ext)
    (hf : t.fb = s.fb) : t.Inv :=
  ⟨by rw [hc, hm]; exact h.memory, by rw [he, hf]; exact h.display⟩

/-- The stack slot a RET pops is the one the CALL before it pushed (R71). -/
theorem State.top_push (a : Word) (h : s.sp.val < 16) : (s.push a h).top = a := by
  simp [State.top]

/-- The first pressed key, if there is one, is pressed, and none below it is (R155). -/
theorem State.firstKey_eq_some {k : Nat} (h : s.firstKey = some k) :
    k < 16 ∧ s.key (BitVec.ofNat 4 k) = true ∧ ∀ j < k, s.key (BitVec.ofNat 4 j) = false := by
  have h' := List.find?_eq_some_iff_getElem.mp h
  obtain ⟨hk, i, hi, rfl, hj⟩ := h'
  simp only [List.length_range] at hi
  refine ⟨by simpa using hi, hk, fun j hlt => ?_⟩
  simp only [List.getElem_range] at hlt hj
  simpa using hj j hlt

/-- There is no first pressed key exactly when none is pressed (R155). -/
theorem State.firstKey_eq_none : s.firstKey = none ↔ ∀ k, s.key k = false := by
  simp only [State.firstKey, List.find?_eq_none, List.mem_range, Bool.not_eq_true]
  constructor
  · intro h k
    have := h k.toNat k.isLt
    simpa using this
  · intro h k _
    exact h _

end Sys2Proof.Machine
end

