-- ==== Sys2Proof/Laws/Exec.lean ====
section
/-! SUPPORT. The next state of every instruction as one update of the state it started from: a proof over all instructions
cites these and never unfolds a meaning. -/

namespace Sys2Proof.Machine

variable (s : State)

/-! Control (spec/40_control.md) -/

theorem exec_ret : exec .ret s = .next (if s.sp.val = 0 then
    { s with diag := s.diag ||| 0b0010, pc := s.pc + 2 }
    else { s with sp := ⟨s.sp.val - 1, by omega⟩, pc := s.top + 2 }) := by
  simp only [exec, execRet]; split <;> rfl

theorem exec_jp (nnn : Addr12) : exec (.jp nnn) s = .next { s with pc := nnn.setWidth 16 } := rfl

theorem exec_call (nnn : Addr12) : exec (.call nnn) s = .next (if h : s.sp.val < 16 then
    { s with stack := s.stack.set s.sp.val s.pc h, sp := ⟨s.sp.val + 1, by omega⟩, pc := nnn.setWidth 16 }
    else { s with diag := s.diag ||| 0b0100, pc := s.pc + 2 }) := by
  simp only [exec, execCall]; split <;> rfl

theorem exec_seImm (x : RegIdx) (kk : Byte) :
    exec (.seImm x kk) s = .next { s with pc := s.pc + if s.reg x == kk then 4 else 2 } := rfl

theorem exec_sneImm (x : RegIdx) (kk : Byte) :
    exec (.sneImm x kk) s = .next { s with pc := s.pc + if s.reg x != kk then 4 else 2 } := rfl

theorem exec_seReg (x y : RegIdx) :
    exec (.seReg x y) s = .next { s with pc := s.pc + if s.reg x == s.reg y then 4 else 2 } := rfl

theorem exec_sneReg (x y : RegIdx) :
    exec (.sneReg x y) s = .next { s with pc := s.pc + if s.reg x != s.reg y then 4 else 2 } := rfl

theorem exec_jpV0 (nnn : Addr12) :
    exec (.jpV0 nnn) s = .next { s with pc := nnn.setWidth 16 + (s.reg (s.jumpReg nnn)).setWidth 16 } := rfl

/-! Arithmetic and logic (spec/41_alu.md) -/

theorem exec_ldImm (x : RegIdx) (kk : Byte) :
    exec (.ldImm x kk) s = .next { s with v := (s.setReg x kk).v, pc := s.pc + 2 } := rfl

theorem exec_addImm (x : RegIdx) (kk : Byte) :
    exec (.addImm x kk) s = .next { s with v := (s.setReg x (s.reg x + kk)).v, pc := s.pc + 2 } := rfl

theorem exec_ldReg (x y : RegIdx) :
    exec (.ldReg x y) s = .next { s with v := (s.setReg x (s.reg y)).v, pc := s.pc + 2 } := rfl

theorem exec_orReg (x y : RegIdx) :
    exec (.orReg x y) s = .next { s with v := (s.setReg x (s.reg x ||| s.reg y)).v, pc := s.pc + 2 } := rfl

theorem exec_andReg (x y : RegIdx) :
    exec (.andReg x y) s = .next { s with v := (s.setReg x (s.reg x &&& s.reg y)).v, pc := s.pc + 2 } := rfl

theorem exec_xorReg (x y : RegIdx) :
    exec (.xorReg x y) s = .next { s with v := (s.setReg x (s.reg x ^^^ s.reg y)).v, pc := s.pc + 2 } := rfl

theorem exec_addReg (x y : RegIdx) : exec (.addReg x y) s = .next { s with
    v := ((s.setReg x (s.reg x + s.reg y)).setFlag (carry (s.reg x) (s.reg y))).v, pc := s.pc + 2 } := rfl

theorem exec_sub (x y : RegIdx) : exec (.sub x y) s = .next { s with
    v := ((s.setReg x (s.reg x - s.reg y)).setFlag (noBorrow (s.reg x) (s.reg y))).v, pc := s.pc + 2 } := rfl

theorem exec_shr (x y : RegIdx) : exec (.shr x y) s = .next { s with
    v := ((s.setReg x (s.shiftOperand x y >>> 1)).setFlag (shiftedOutRight (s.shiftOperand x y))).v
    pc := s.pc + 2 } := rfl

theorem exec_subn (x y : RegIdx) : exec (.subn x y) s = .next { s with
    v := ((s.setReg x (s.reg y - s.reg x)).setFlag (noBorrow (s.reg y) (s.reg x))).v, pc := s.pc + 2 } := rfl

theorem exec_shl (x y : RegIdx) : exec (.shl x y) s = .next { s with
    v := ((s.setReg x (s.shiftOperand x y <<< 1)).setFlag (shiftedOutLeft (s.shiftOperand x y))).v
    pc := s.pc + 2 } := rfl

theorem exec_rnd (x : RegIdx) (kk : Byte) :
    exec (.rnd x kk) s = .next { s with v := (s.setReg x (s.rnd &&& kk)).v, pc := s.pc + 2 } := rfl

/-! Index, memory and auxiliary registers (spec/42_index_memory.md) -/

theorem exec_ldI (nnn : Addr12) : exec (.ldI nnn) s = .next { s with i := nnn.setWidth 16, pc := s.pc + 2 } := rfl

theorem exec_addI (x : RegIdx) : exec (.addI x) s = .next { s with
    i := s.i + (s.reg x).setWidth 16
    v := (s.setFlag (indexOverflow s.cfg (s.i.toNat + (s.reg x).toNat))).v
    pc := s.pc + 2 } := rfl

theorem exec_ldF (x : RegIdx) : exec (.ldF x) s = .next { s with i := s.fontAddr (s.reg x), pc := s.pc + 2 } := rfl

theorem exec_ldHF (x : RegIdx) :
    exec (.ldHF x) s = .next { s with i := bigGlyphAddr s.cfg (s.reg x), pc := s.pc + 2 } := rfl

/-- One write changes memory and DIAG alone (R34). -/
theorem State.memWrite_eq (a : Nat) (b : Byte) :
    s.memWrite a b = { s with mem := (s.memWrite a b).mem, diag := (s.noteAddr a).diag } := rfl

/-- Memory after the three digits of LD B,Vx (R114). -/
def State.bcdMem (s : State) (b : Byte) : Memory :=
  (((s.memWrite (s.indexAddr 0) (hundreds b)).memWrite (s.indexAddr 1) (tens b)).memWrite (s.indexAddr 2) (ones b)).mem

theorem State.bcdMem_wf (b : Byte) (h : Memory.wf s.cfg s.mem) : Memory.wf s.cfg (s.bcdMem b) := by
  have h3 := State.memWrite_wf _ (s.indexAddr 2) (ones b)
    (State.memWrite_wf _ (s.indexAddr 1) (tens b) (State.memWrite_wf s (s.indexAddr 0) (hundreds b) h))
  simp only [State.memWrite_cfg] at h3
  exact h3

theorem State.advance_eq : s.advance = { s with pc := s.pc + 2 } := rfl

/-- Three writes in a row change memory and DIAG alone. -/
theorem State.memWrite3_eq (a b c : Nat) (u v w : Byte) :
    ((s.memWrite a u).memWrite b v).memWrite c w = { s with
      mem := (((s.memWrite a u).memWrite b v).memWrite c w).mem
      diag := (((s.noteAddr a).noteAddr b).noteAddr c).diag } := by
  rw [State.memWrite_eq _ c w]
  generalize hm : (((s.memWrite a u).memWrite b v).memWrite c w).mem = m
  rw [State.memWrite_eq _ b v]
  rw [State.memWrite_eq _ a u]
  rfl

theorem exec_ldB (x : RegIdx) : exec (.ldB x) s = .next { s with
    mem := s.bcdMem (s.reg x), diag := diagAfter s.diag s.i.toNat 3, pc := s.pc + 2 } := by
  have h := congrArg State.diag (s.noteReads_eq s.i.toNat 3)
  simp only at h
  simp only [exec, execLdB]
  rw [State.memWrite3_eq, ← h]
  rfl

theorem exec_ldMemVx (x : RegIdx) : exec (.ldMemVx x) s = .next { s with
    mem := (s.storeRegs s.i.toNat (x.toNat + 1)).mem
    i := (s.stepIndex x).i
    diag := diagAfter s.diag s.i.toNat (x.toNat + 1)
    pc := s.pc + 2 } := by
  simp only [exec, execLdMemVx]
  rw [State.storeRegs_eq]
  rfl

theorem exec_ldVxMem (x : RegIdx) : exec (.ldVxMem x) s = .next { s with
    v := (s.loadRegs s.i.toNat (x.toNat + 1)).v
    i := (s.stepIndex x).i
    diag := diagAfter s.diag s.i.toNat (x.toNat + 1)
    pc := s.pc + 2 } := by
  simp only [exec, execLdVxMem]
  rw [State.loadRegs_eq]
  rfl

theorem exec_ldRVx (x : RegIdx) :
    exec (.ldRVx x) s = .next { s with aux := (s.storeAux (x.toNat + 1)).aux, pc := s.pc + 2 } := by
  simp only [exec, execLdRVx]
  rw [State.storeAux_eq]
  rfl

theorem exec_ldVxR (x : RegIdx) :
    exec (.ldVxR x) s = .next { s with v := (s.loadAux (x.toNat + 1)).v, pc := s.pc + 2 } := by
  simp only [exec, execLdVxR]
  rw [State.loadAux_eq]
  rfl

/-! Display (spec/43_display.md) -/

theorem exec_cls : exec .cls s = .next { s with fb := Frame.clear, dirty := true, pc := s.pc + 2 } := rfl

theorem exec_drw (x y : RegIdx) (n : Nibble) : exec (.drw x y n) s = .next { s with
    fb := (Frame.draw s.ext (s.sprite x y n) s.fb (s.spriteRows n)).1
    dirty := true
    v := (s.setFlag (Frame.draw s.ext (s.sprite x y n) s.fb (s.spriteRows n)).2).v
    diag := diagAfter s.diag s.i.toNat (s.spriteBytes n)
    pc := s.pc + 2 } := by
  simp only [exec, execDrw, State.noteReads_eq]
  rfl

theorem exec_scd (n : Nibble) : exec (.scd n) s = .next { s with
    fb := s.fb.scrollDown s.ext n.toNat, dirty := true, pc := s.pc + 2 } := rfl

theorem exec_scr : exec .scr s = .next { s with
    fb := s.fb.scrollRight s.ext (Config.freeCells s.draws) s.cfg.scrollH, dirty := true, pc := s.pc + 2 } := rfl

theorem exec_scl : exec .scl s = .next { s with
    fb := s.fb.scrollLeft s.ext (Config.freeCells s.draws) s.cfg.scrollH, dirty := true, pc := s.pc + 2 } := rfl

theorem exec_low : exec .low s = .next { s with
    ext := false, fb := Frame.clear, dirty := true, pc := s.pc + 2 } := rfl

theorem exec_high : exec .high s = .next { s with
    ext := true, fb := Frame.clear, dirty := true, pc := s.pc + 2 } := rfl

/-! Timers and keypad (spec/44_timer_keypad.md) -/

theorem exec_skp (x : RegIdx) :
    exec (.skp x) s = .next { s with pc := s.pc + if s.key (s.keyIndex x) then 4 else 2 } := rfl

theorem exec_sknp (x : RegIdx) :
    exec (.sknp x) s = .next { s with pc := s.pc + if !s.key (s.keyIndex x) then 4 else 2 } := rfl

theorem exec_ldVxDT (x : RegIdx) :
    exec (.ldVxDT x) s = .next { s with v := (s.setReg x s.dt).v, pc := s.pc + 2 } := rfl

theorem exec_ldDTVx (x : RegIdx) : exec (.ldDTVx x) s = .next { s with dt := s.reg x, pc := s.pc + 2 } := rfl

theorem exec_ldSTVx (x : RegIdx) : exec (.ldSTVx x) s = .next { s with st := s.reg x, pc := s.pc + 2 } := rfl

theorem exec_ldVxK (x : RegIdx) : exec (.ldVxK x) s = .next (match s.firstKey with
    | none => s
    | some k => { s with v := (s.setReg x (BitVec.ofNat 8 k)).v, pc := s.pc + 2 }) := by
  simp only [exec, execLdVxK]
  split
  · simp_all
  · simp_all; rfl

end Sys2Proof.Machine
end

