-- ==== Sys2Proof/Laws/PerInstr.lean ====
section
/-! SUPPORT. Statements about every instruction as syntax, one lemma per constructor.

FitsOpcodeRow: the encoding of an instruction fits the instruction's own row of the opcode map, `w and mask = match`
(spec/30_encoding.md R54), so no operand reaches into a fixed bit. -/

namespace Sys2Proof.Laws

/-- The encoding fits the instruction's row of R54. -/
def FitsOpcodeRow.Statement (i : Instr) : Prop :=
  encode i &&& (opcodeRow i).mask = (opcodeRow i).pattern

/-- Format A against mask F000. -/
theorem encodeA_and (op : BitVec 4) (nnn : Addr12) : encodeA op nnn &&& 0xF000 = op ++ 0#12 := by
  show op ++ nnn &&& 15#4 ++ 0#12 = _
  simp only [BitVec.and_append, BitVec.and_zero, show 15#4 = BitVec.allOnes 4 from rfl, BitVec.and_allOnes]

/-- Format XK against mask F000. -/
theorem encodeXK_and (op : BitVec 4) (x : RegIdx) (kk : Byte) : encodeXK op x kk &&& 0xF000 = op ++ 0#4 ++ 0#8 := by
  show op ++ x ++ kk &&& 15#4 ++ 0#4 ++ 0#8 = _
  simp only [BitVec.and_append, BitVec.and_zero, show 15#4 = BitVec.allOnes 4 from rfl, BitVec.and_allOnes]

/-- Format X against mask F0FF. -/
theorem encodeX_and (op : BitVec 4) (x : RegIdx) (kk : Byte) : encodeXK op x kk &&& 0xF0FF = op ++ 0#4 ++ kk := by
  show op ++ x ++ kk &&& 15#4 ++ 0#4 ++ 255#8 = _
  simp only [BitVec.and_append, BitVec.and_zero, show 15#4 = BitVec.allOnes 4 from rfl,
    show 255#8 = BitVec.allOnes 8 from rfl, BitVec.and_allOnes]

/-- Format XY against mask F00F. -/
theorem encodeXY_and (op : BitVec 4) (x y : RegIdx) (n : Nibble) :
    encodeXYN op x y n &&& 0xF00F = op ++ 0#4 ++ 0#4 ++ n := by
  show op ++ x ++ y ++ n &&& 15#4 ++ 0#4 ++ 0#4 ++ 15#4 = op ++ 0#4 ++ 0#4 ++ n
  simp only [BitVec.and_append, BitVec.and_zero, show 15#4 = BitVec.allOnes 4 from rfl, BitVec.and_allOnes]

/-- Formats XYI and XYN against mask F000. -/
theorem encodeXYN_and (op : BitVec 4) (x y : RegIdx) (n : Nibble) :
    encodeXYN op x y n &&& 0xF000 = op ++ 0#4 ++ 0#4 ++ 0#4 := by
  show op ++ x ++ y ++ n &&& 15#4 ++ 0#4 ++ 0#4 ++ 0#4 = op ++ 0#4 ++ 0#4 ++ 0#4
  simp only [BitVec.and_append, BitVec.and_zero, show 15#4 = BitVec.allOnes 4 from rfl, BitVec.and_allOnes]

theorem FitsOpcodeRow.scd (n : Nibble) : FitsOpcodeRow.Statement (.scd n) := by
  revert n; unfold FitsOpcodeRow.Statement; decide

theorem FitsOpcodeRow.cls : FitsOpcodeRow.Statement .cls := by
  unfold FitsOpcodeRow.Statement; decide

theorem FitsOpcodeRow.ret : FitsOpcodeRow.Statement .ret := by
  unfold FitsOpcodeRow.Statement; decide

theorem FitsOpcodeRow.scr : FitsOpcodeRow.Statement .scr := by
  unfold FitsOpcodeRow.Statement; decide

theorem FitsOpcodeRow.scl : FitsOpcodeRow.Statement .scl := by
  unfold FitsOpcodeRow.Statement; decide

theorem FitsOpcodeRow.low : FitsOpcodeRow.Statement .low := by
  unfold FitsOpcodeRow.Statement; decide

theorem FitsOpcodeRow.high : FitsOpcodeRow.Statement .high := by
  unfold FitsOpcodeRow.Statement; decide

theorem FitsOpcodeRow.jp (nnn : Addr12) : FitsOpcodeRow.Statement (.jp nnn) := encodeA_and 0x1 nnn

theorem FitsOpcodeRow.call (nnn : Addr12) : FitsOpcodeRow.Statement (.call nnn) := encodeA_and 0x2 nnn

theorem FitsOpcodeRow.seImm (x : RegIdx) (kk : Byte) : FitsOpcodeRow.Statement (.seImm x kk) := encodeXK_and 0x3 x kk

theorem FitsOpcodeRow.sneImm (x : RegIdx) (kk : Byte) : FitsOpcodeRow.Statement (.sneImm x kk) := encodeXK_and 0x4 x kk

theorem FitsOpcodeRow.seReg (x : RegIdx) (y : RegIdx) : FitsOpcodeRow.Statement (.seReg x y) := encodeXYN_and 0x5 x y 0

theorem FitsOpcodeRow.ldImm (x : RegIdx) (kk : Byte) : FitsOpcodeRow.Statement (.ldImm x kk) := encodeXK_and 0x6 x kk

theorem FitsOpcodeRow.addImm (x : RegIdx) (kk : Byte) : FitsOpcodeRow.Statement (.addImm x kk) := encodeXK_and 0x7 x kk

theorem FitsOpcodeRow.ldReg (x : RegIdx) (y : RegIdx) : FitsOpcodeRow.Statement (.ldReg x y) := encodeXY_and 0x8 x y 0x0

theorem FitsOpcodeRow.orReg (x : RegIdx) (y : RegIdx) : FitsOpcodeRow.Statement (.orReg x y) := encodeXY_and 0x8 x y 0x1

theorem FitsOpcodeRow.andReg (x : RegIdx) (y : RegIdx) : FitsOpcodeRow.Statement (.andReg x y) := encodeXY_and 0x8 x y 0x2

theorem FitsOpcodeRow.xorReg (x : RegIdx) (y : RegIdx) : FitsOpcodeRow.Statement (.xorReg x y) := encodeXY_and 0x8 x y 0x3

theorem FitsOpcodeRow.addReg (x : RegIdx) (y : RegIdx) : FitsOpcodeRow.Statement (.addReg x y) := encodeXY_and 0x8 x y 0x4

theorem FitsOpcodeRow.sub (x : RegIdx) (y : RegIdx) : FitsOpcodeRow.Statement (.sub x y) := encodeXY_and 0x8 x y 0x5

theorem FitsOpcodeRow.shr (x : RegIdx) (y : RegIdx) : FitsOpcodeRow.Statement (.shr x y) := encodeXY_and 0x8 x y 0x6

theorem FitsOpcodeRow.subn (x : RegIdx) (y : RegIdx) : FitsOpcodeRow.Statement (.subn x y) := encodeXY_and 0x8 x y 0x7

theorem FitsOpcodeRow.shl (x : RegIdx) (y : RegIdx) : FitsOpcodeRow.Statement (.shl x y) := encodeXY_and 0x8 x y 0xE

theorem FitsOpcodeRow.sneReg (x : RegIdx) (y : RegIdx) : FitsOpcodeRow.Statement (.sneReg x y) := encodeXYN_and 0x9 x y 0

theorem FitsOpcodeRow.ldI (nnn : Addr12) : FitsOpcodeRow.Statement (.ldI nnn) := encodeA_and 0xA nnn

theorem FitsOpcodeRow.jpV0 (nnn : Addr12) : FitsOpcodeRow.Statement (.jpV0 nnn) := encodeA_and 0xB nnn

theorem FitsOpcodeRow.rnd (x : RegIdx) (kk : Byte) : FitsOpcodeRow.Statement (.rnd x kk) := encodeXK_and 0xC x kk

theorem FitsOpcodeRow.drw (x : RegIdx) (y : RegIdx) (n : Nibble) : FitsOpcodeRow.Statement (.drw x y n) := encodeXYN_and 0xD x y n

theorem FitsOpcodeRow.skp (x : RegIdx) : FitsOpcodeRow.Statement (.skp x) := encodeX_and 0xE x 0x9E

theorem FitsOpcodeRow.sknp (x : RegIdx) : FitsOpcodeRow.Statement (.sknp x) := encodeX_and 0xE x 0xA1

theorem FitsOpcodeRow.ldVxDT (x : RegIdx) : FitsOpcodeRow.Statement (.ldVxDT x) := encodeX_and 0xF x 0x07

theorem FitsOpcodeRow.ldVxK (x : RegIdx) : FitsOpcodeRow.Statement (.ldVxK x) := encodeX_and 0xF x 0x0A

theorem FitsOpcodeRow.ldDTVx (x : RegIdx) : FitsOpcodeRow.Statement (.ldDTVx x) := encodeX_and 0xF x 0x15

theorem FitsOpcodeRow.ldSTVx (x : RegIdx) : FitsOpcodeRow.Statement (.ldSTVx x) := encodeX_and 0xF x 0x18

theorem FitsOpcodeRow.addI (x : RegIdx) : FitsOpcodeRow.Statement (.addI x) := encodeX_and 0xF x 0x1E

theorem FitsOpcodeRow.ldF (x : RegIdx) : FitsOpcodeRow.Statement (.ldF x) := encodeX_and 0xF x 0x29

theorem FitsOpcodeRow.ldHF (x : RegIdx) : FitsOpcodeRow.Statement (.ldHF x) := encodeX_and 0xF x 0x30

theorem FitsOpcodeRow.ldB (x : RegIdx) : FitsOpcodeRow.Statement (.ldB x) := encodeX_and 0xF x 0x33

theorem FitsOpcodeRow.ldMemVx (x : RegIdx) : FitsOpcodeRow.Statement (.ldMemVx x) := encodeX_and 0xF x 0x55

theorem FitsOpcodeRow.ldVxMem (x : RegIdx) : FitsOpcodeRow.Statement (.ldVxMem x) := encodeX_and 0xF x 0x65

theorem FitsOpcodeRow.ldRVx (x : RegIdx) : FitsOpcodeRow.Statement (.ldRVx x) := encodeX_and 0xF x 0x75

theorem FitsOpcodeRow.ldVxR (x : RegIdx) : FitsOpcodeRow.Statement (.ldVxR x) := encodeX_and 0xF x 0x85

end Sys2Proof.Laws
end

