-- ==== Sys2Proof/Laws/Step.lean ====
section
/-! SUPPORT. What one step can do, said once (spec/00_scope.md R2; spec/30_encoding.md R56). -/

namespace Sys2Proof.Machine

/-- A step is either a step of the CPU, on the state without the event that asked for it, or the oldest queued event of
another agent, on the state without that event. -/
theorem step_cases {s t : State} (h : step s = .next t) :
    (s.pending = [] ∧ cpuStep (Config.freeRnd s.draws) { s with draws := s.draws + 1 } = .next t) ∨
    (∃ rnd es, s.pending = .step rnd :: es ∧
      cpuStep rnd { s with draws := s.draws + 1, pending := es } = .next t) ∨
    (∃ es, s.pending = .tickDT :: es ∧ t = State.tickDT { s with pending := es }) ∨
    (∃ es, s.pending = .tickST :: es ∧ t = State.tickST { s with pending := es }) ∨
    (∃ now es, s.pending = .tickTimers now :: es ∧ t = State.tickTimers now { s with pending := es }) ∨
    (∃ k p es, s.pending = .setKey k p :: es ∧ t = State.setKey k p { s with pending := es }) ∨
    (∃ es, s.pending = .consumeFrame :: es ∧ t = State.consumeFrame { s with pending := es }) ∨
    (∃ bs a es, s.pending = .load bs a :: es ∧ t = State.loadEvent bs a { s with pending := es }) ∨
    (∃ time es, s.pending = .reset time :: es ∧ t = State.resetEvent time { s with pending := es }) := by
  unfold step at h
  split at h <;> simp_all [-Bool.exists_bool]

/-- A CPU step is the meaning of the decoded instruction after the fetch, or the effect of an unknown word (R56, R57). -/
theorem cpuStep_cases {rnd : Byte} {s t : State} (h : cpuStep rnd s = .next t) :
    (∃ i, decodeWord s.fetchWord = .instr i ∧ exec i (s.beginStep rnd) = .next t) ∨
    (∃ why, decodeWord s.fetchWord = .unknown why ∧ t = (s.beginStep rnd).skipUnknown) := by
  unfold cpuStep at h
  split at h <;> simp_all

end Sys2Proof.Machine
end

