-- ==== Sys2Proof/Tests/Slice0.lean ====
section
/-! SUPPORT. The author's own tests: the word checks, decoding every constructor from a word written out bit by bit, one step of
every instruction, and a witness for every statement that has hypotheses. Expected values are those of
spec/95_test_vectors.md (the table or example is named) unless a comment says otherwise. -/

namespace Sys2Proof.Tests

open Sys2Proof Sys2Proof.Machine

/-! ## Words that the checks refuse (R57, R58) -/

theorem test_refuse_family0 : unknownFamily0 0x00FD = true ∧ Word.wellFormed 0x00FD = false := by decide

theorem test_refuse_family8 : unknownFamily8 0x8AB8 = true ∧ Word.wellFormed 0x8AB8 = false := by decide

theorem test_refuse_familyE : unknownFamilyE 0xE59F = true ∧ Word.wellFormed 0xE59F = false := by decide

theorem test_refuse_familyF : unknownFamilyF 0xF531 = true ∧ Word.wellFormed 0xF531 = false := by decide

theorem test_refuse_nibble : canonicalNibble 0x5121 = false ∧ Word.wellFormed 0x5121 = false ∧
    canonicalNibble 0x9125 = false ∧ Word.wellFormed 0x9120 = true := by decide

/-! ## Decoding, every constructor, the word written out from R52 and R54 as op, x, y, n / op, x, kk / op, nnn -/

theorem test_decode_family0 :
    decodeWord 0b0000_0000_1100_0101 = .instr (.scd 5) ∧
    decodeWord 0b0000_0000_1110_0000 = .instr .cls ∧
    decodeWord 0b0000_0000_1110_1110 = .instr .ret ∧
    decodeWord 0b0000_0000_1111_1011 = .instr .scr ∧
    decodeWord 0b0000_0000_1111_1100 = .instr .scl ∧
    decodeWord 0b0000_0000_1111_1110 = .instr .low ∧
    decodeWord 0b0000_0000_1111_1111 = .instr .high := by decide

theorem test_decode_address_forms :
    decodeWord 0b0001_1010_1011_1100 = .instr (.jp 0xABC) ∧
    decodeWord 0b0010_1010_1011_1100 = .instr (.call 0xABC) ∧
    decodeWord 0b1010_0011_0000_0001 = .instr (.ldI 0x301) ∧
    decodeWord 0b1011_1111_1110_1101 = .instr (.jpV0 0xFED) := by decide

theorem test_decode_constant_forms :
    decodeWord 0b0011_1010_0111_1111 = .instr (.seImm 0xA 0x7F) ∧
    decodeWord 0b0100_0011_0010_1010 = .instr (.sneImm 3 0x2A) ∧
    decodeWord 0b0110_1111_1010_1011 = .instr (.ldImm 0xF 0xAB) ∧
    decodeWord 0b0111_0000_1111_1111 = .instr (.addImm 0 0xFF) ∧
    decodeWord 0b1100_0101_1111_0000 = .instr (.rnd 5 0xF0) := by decide

theorem test_decode_register_compares :
    decodeWord 0b0101_0001_0010_0000 = .instr (.seReg 1 2) ∧
    decodeWord 0b0101_0001_0010_1111 = .instr (.seReg 1 2) ∧
    decodeWord 0b1001_0001_0010_0101 = .instr (.sneReg 1 2) := by decide

theorem test_decode_family8 :
    decodeWord 0b1000_1010_1011_0000 = .instr (.ldReg 0xA 0xB) ∧
    decodeWord 0b1000_1010_1011_0001 = .instr (.orReg 0xA 0xB) ∧
    decodeWord 0b1000_1010_1011_0010 = .instr (.andReg 0xA 0xB) ∧
    decodeWord 0b1000_1010_1011_0011 = .instr (.xorReg 0xA 0xB) ∧
    decodeWord 0b1000_1010_1011_0100 = .instr (.addReg 0xA 0xB) ∧
    decodeWord 0b1000_1010_1011_0101 = .instr (.sub 0xA 0xB) ∧
    decodeWord 0b1000_1010_1011_0110 = .instr (.shr 0xA 0xB) ∧
    decodeWord 0b1000_1010_1011_0111 = .instr (.subn 0xA 0xB) ∧
    decodeWord 0b1000_1010_1011_1110 = .instr (.shl 0xA 0xB) := by decide

theorem test_decode_draw_and_keys :
    decodeWord 0b1101_0011_1010_0111 = .instr (.drw 3 0xA 7) ∧
    decodeWord 0b1110_0101_1001_1110 = .instr (.skp 5) ∧
    decodeWord 0b1110_0101_1010_0001 = .instr (.sknp 5) := by decide

theorem test_decode_familyF :
    decodeWord 0b1111_0011_0000_0111 = .instr (.ldVxDT 3) ∧
    decodeWord 0b1111_0101_0000_1010 = .instr (.ldVxK 5) ∧
    decodeWord 0b1111_0001_0001_0101 = .instr (.ldDTVx 1) ∧
    decodeWord 0b1111_0010_0001_1000 = .instr (.ldSTVx 2) ∧
    decodeWord 0b1111_0100_0001_1110 = .instr (.addI 4) ∧
    decodeWord 0b1111_0110_0010_1001 = .instr (.ldF 6) ∧
    decodeWord 0b1111_0111_0011_0000 = .instr (.ldHF 7) ∧
    decodeWord 0b1111_1000_0011_0011 = .instr (.ldB 8) ∧
    decodeWord 0b1111_1001_0101_0101 = .instr (.ldMemVx 9) ∧
    decodeWord 0b1111_1010_0110_0101 = .instr (.ldVxMem 0xA) ∧
    decodeWord 0b1111_1011_0111_0101 = .instr (.ldRVx 0xB) ∧
    decodeWord 0b1111_1100_1000_0101 = .instr (.ldVxR 0xC) := by decide

/-- Table 2.1, the unknown words, each refused under the name of its row of R57; and a list of one byte. -/
theorem test_decode_unknown :
    decodeWord 0x0000 = .unknown .family0 ∧ decodeWord 0x00E1 = .unknown .family0 ∧
    decodeWord 0x01E0 = .unknown .family0 ∧ decodeWord 0x8AB8 = .unknown .family8 ∧
    decodeWord 0x8ABF = .unknown .family8 ∧ decodeWord 0xE500 = .unknown .familyE ∧
    decodeWord 0xF5FF = .unknown .familyF ∧ decodeBytes [0x60] = (.unknown .truncated, [0x60]) := by decide

/-- The first byte in memory is the high byte of the word (R35, R37; S12). -/
theorem test_decode_bytes_big_endian :
    decodeBytes [0x12, 0x34, 0x56] = (.instr (.jp 0x234), [0x56]) ∧ bytesOfWord 0x1234 = [0x12, 0x34] ∧
    decodeTableWord 16 0x1234 = some (.jp 0x234) := by decide

/-! ## One step of every instruction -/

/-- The state after one step that runs the word `w`, with a byte on the `rnd` port. -/
def ranWith (rnd : Byte) (s : State) (w : Nat) : State :=
  match step ({ s with pending := [.step rnd] }.withFetchWord 16 w) with
  | .next t => t
  | .fault _ => s
  | .refused _ => s

/-- The state after one step that runs the word `w`. -/
def ran (s : State) (w : Nat) : State := ranWith 0xFF s w

/-- The state after a queued event of another agent. -/
def after (e : Event) (s : State) : State :=
  match step { s with pending := [e] } with
  | .next t => t
  | .fault _ => s
  | .refused _ => s

/-- The reset state with values in the first general registers. -/
def regs (bs : List Byte) : State :=
  { State.reset with v := Vector.ofFn fun i => bs.getD i.val 0 }

/-- A state with bytes in memory from an address on. -/
def withBytes (a : Nat) (bs : List Byte) (s : State) : State :=
  { s with mem := Memory.writeAll s.cfg s.mem a bs }

/-- A state with some cells of the buffer set, given as (column, row). -/
def withCells (cs : List (Nat × Nat)) (s : State) : State :=
  { s with fb := cs.foldl (fun f c => f.setRow c.2 (f.row c.2 ||| 1#128 <<< c.1)) s.fb }

/-- The cells set in the grid's rows of a list. -/
def litIn (rows : List Nat) (s : State) : List (Nat × Nat) :=
  rows.flatMap fun r => ((List.range s.width).filter fun c => s.fb.cell r c).map fun c => (c, r)

/-- Table 2.3. -/
theorem test_jp : (ran State.reset 0x1FFF).pc = 0x0FFF ∧ (ran State.reset 0x1FFF).diag = 0 := by decide

theorem test_call : let t := ran { State.reset with pc := 0x300, sp := 15 } 0x2400
    t.stack[15] = 0x300 ∧ t.sp = 16 ∧ t.pc = 0x400 ∧ t.diag = 0 := by decide

theorem test_call_overflow : let t := ran { State.reset with pc := 0x300, sp := 16 } 0x2400
    t.sp = 16 ∧ t.pc = 0x302 ∧ t.diag = 0b0100 := by decide

theorem test_ret : let t := ran { State.reset with sp := 1, stack := State.reset.stack.set 0 0xFFFF } 0x00EE
    t.sp = 0 ∧ t.pc = 0x0001 ∧ t.stack[0] = 0xFFFF := by decide

theorem test_ret_underflow : let t := ran { State.reset with pc := 0x300 } 0x00EE
    t.sp = 0 ∧ t.pc = 0x302 ∧ t.diag = 0b0010 := by decide

theorem test_se_constant : (ran (regs [0, 0, 0, 0x2A]) 0x332A).pc = 0x204 ∧ (ran (regs [0, 0, 0, 0x2B]) 0x332A).pc = 0x202 := by
  decide

/-- The last row of table 2.3: the skip wraps modulo 65536 and the fetch overflows. -/
theorem test_se_constant_wraps : let t := ran { State.reset with pc := 0xFFFE } 0x3100
    t.pc = 0x0002 ∧ t.diag = 0b1000 := by decide

theorem test_sne_constant : (ran (regs [0, 0, 0, 0x2A]) 0x432A).pc = 0x202 ∧ (ran (regs [0, 0, 0, 0x2B]) 0x432A).pc = 0x204 := by
  decide

theorem test_se_register : (ran (regs [0, 7, 7]) 0x5121).pc = 0x204 ∧ (ran (regs [0, 7]) 0x5110).pc = 0x204 := by decide

theorem test_sne_register : (ran (regs [0, 7, 8]) 0x9125).pc = 0x204 ∧ (ran (regs [0, 7, 7]) 0x9120).pc = 0x202 := by decide

theorem test_jp_v0 : (ran (regs [0xFF]) 0xBFFF).pc = 0x10FE := by decide

theorem test_jp_v0_quirk :
    (ran { regs [0xFF, 0, 0x01] with cfg := { defaultConfig with jumpQuirk := true } } 0xB2FF).pc = 0x300 := by decide

/-- Table 2.2. -/
theorem test_ld_constant : (ran State.reset 0x6FAB).reg 15 = 0xAB ∧ (ran (regs [0, 0, 0, 0x77]) 0x6300).reg 3 = 0 := by decide

theorem test_add_constant : (ran (regs [0xFF]) 0x7001).reg 0 = 0 ∧ (ran (regs [0xFF]) 0x7001).reg 15 = 0 := by decide

theorem test_ld_register : let t := ran ((regs [0, 0x0A]).setReg 15 0x55) 0x8010
    t.reg 0 = 0x0A ∧ t.reg 15 = 0x55 := by decide

theorem test_or : let t := ran ((regs [0xF3, 0x35]).setReg 15 0x55) 0x8011
    t.reg 0 = 0xF7 ∧ t.reg 15 = 0x55 := by decide

theorem test_and : let t := ran ((regs [0xF3, 0x35]).setReg 15 0x55) 0x8012
    t.reg 0 = 0x31 ∧ t.reg 15 = 0x55 := by decide

theorem test_xor : let t := ran ((regs [0xF3, 0x35]).setReg 15 0x55) 0x8013
    t.reg 0 = 0xC6 ∧ t.reg 15 = 0x55 ∧ (ran (regs [0x5A]) 0x8003).reg 0 = 0 := by decide

theorem test_add_register : let t := ran (regs [0xFF, 0x02]) 0x8014
    t.reg 0 = 0x01 ∧ t.reg 15 = 1 ∧ (ran (regs [0xFF, 0]) 0x8014).reg 15 = 0 := by decide

theorem test_add_flag_as_operand : let s := State.reset.setReg 14 0x20
    (ran (s.setReg 15 0x10) 0x8FE4).reg 15 = 0 ∧ (ran ((regs [0x10]).setReg 15 1) 0x80F4).reg 0 = 0x11 := by decide

theorem test_sub : let t := ran (regs [0, 1]) 0x8015
    t.reg 0 = 0xFF ∧ t.reg 15 = 0 ∧ (ran (regs [5, 5]) 0x8015).reg 15 = 1 := by decide

theorem test_subn : let t := ran (regs [1, 0]) 0x8017
    t.reg 0 = 0xFF ∧ t.reg 15 = 0 ∧ (ran (regs [5, 5]) 0x8017).reg 15 = 1 := by decide

theorem test_shr : let t := ran (regs [0xFF]) 0x8016
    t.reg 0 = 0x7F ∧ t.reg 15 = 1 ∧ (ran (State.reset.setReg 15 3) 0x8F06).reg 15 = 1 := by decide

theorem test_shr_vy : let t := ran { regs [0xFF, 0x04] with cfg := { defaultConfig with shiftIgnoresVy := false } } 0x8016
    t.reg 0 = 0x02 ∧ t.reg 1 = 0x04 ∧ t.reg 15 = 0 := by decide

theorem test_shl : let t := ran (regs [0xFF]) 0x801E
    t.reg 0 = 0xFE ∧ t.reg 15 = 1 := by decide

theorem test_shl_vy : let t := ran { regs [0, 0xC1] with cfg := { defaultConfig with shiftIgnoresVy := false } } 0x801E
    t.reg 0 = 0x82 ∧ t.reg 1 = 0xC1 ∧ t.reg 15 = 1 := by decide

theorem test_rnd : (ranWith 0xA7 State.reset 0xC00F).reg 0 = 0x07 ∧ (ranWith 0xFF (regs [9]) 0xC000).reg 0 = 0 := by decide

/-- Tables 2.5 and 2.4. -/
theorem test_ld_i : (ran State.reset 0xAFFF).i = 0x0FFF := by decide

/-- The threshold: 0xFFF clears the flag, 0x1000 sets it, and I wraps at 65536. -/
theorem test_add_i : let s := { regs [1, 2] with i := 0x0FFE }
    ((ran s 0xF01E).i = 0x0FFF ∧ (ran s 0xF01E).reg 15 = 0) ∧ ((ran s 0xF11E).i = 0x1000 ∧ (ran s 0xF11E).reg 15 = 1) ∧
    (ran { s with i := 0xFFFF } 0xF01E).i = 0 ∧ (ran { s with i := 0xFFFF } 0xF01E).reg 15 = 1 := by decide

theorem test_add_i_inclusive :
    let s := { regs [1] with i := 0x0FFE, cfg := { defaultConfig with addiOverflowInclusive := true } }
    (ran s 0xF01E).i = 0x0FFF ∧ (ran s 0xF01E).reg 15 = 1 := by decide

theorem test_ld_f : (ran (regs [0xFF]) 0xF029).i = 0x04FB ∧ (ran { regs [0x0A] with ext := true } 0xF029).i = 0x00B4 := by decide

theorem test_ld_hf : (ran (regs [0x0F]) 0xF030).i = 0x00E6 := by decide

theorem test_ld_b : let t := ran { regs [255] with i := 0x300 } 0xF033
    t.readByte 0x300 = 2 ∧ t.readByte 0x301 = 5 ∧ t.readByte 0x302 = 5 ∧ t.diag = 0 := by decide

/-- The last digit wraps to address 0 and raises AddressOverflow. -/
theorem test_ld_b_wraps : let t := ran { regs [123] with i := 0x0FFE } 0xF033
    t.readByte 0xFFE = 1 ∧ t.readByte 0xFFF = 2 ∧ t.readByte 0x000 = 3 ∧ t.diag = 0b1000 := by decide

theorem test_register_dump : let t := ran { regs [0xAA, 0xBB] with i := 0x400 } 0xF055
    t.readByte 0x400 = 0xAA ∧ t.readByte 0x401 = 0 ∧ t.i = 0x400 := by decide

theorem test_register_dump_increments :
    let t := ran { regs [0xAA, 0xBB] with i := 0x400, cfg := { defaultConfig with storeLoadIncrementsIndex := true } } 0xF155
    t.readByte 0x400 = 0xAA ∧ t.readByte 0x401 = 0xBB ∧ t.readByte 0x402 = 0 ∧ t.i = 0x402 := by decide

theorem test_register_load :
    let t := ran (withBytes 0x500 [0x10, 0x11, 0x12, 0x13] { State.reset with i := 0x500 }) 0xF265
    t.reg 0 = 0x10 ∧ t.reg 2 = 0x12 ∧ t.reg 3 = 0 ∧ t.i = 0x500 := by decide

theorem test_register_load_masks : let t := ran (withBytes 0x234 [0x5A] { State.reset with i := 0x1234 }) 0xF065
    t.reg 0 = 0x5A ∧ t.i = 0x1234 ∧ t.diag = 0b1000 := by decide

theorem test_aux_store : let t := ran (regs [9, 8, 7]) 0xF175
    t.auxReg 0 = 9 ∧ t.auxReg 1 = 8 ∧ t.auxReg 2 = 0 := by decide

theorem test_aux_load : let t := ran { regs [0, 0, 0, 0x77] with aux := (regs [1, 2, 3, 4]).v } 0xF285
    t.reg 0 = 1 ∧ t.reg 1 = 2 ∧ t.reg 2 = 3 ∧ t.reg 3 = 0x77 := by decide

/-- Table 2.4: the fetch at 0x0FFF takes its second byte from 0x000. -/
theorem test_fetch_wraps : let t := ran { State.reset with pc := 0xFFF } 0x6005
    t.reg 0 = 5 ∧ t.pc = 0x1001 ∧ t.diag = 0b1000 := by decide

/-- Table 2.1: an unknown word only raises its diagnostic and advances PC. -/
theorem test_unknown_word : let t := ran (regs [1, 2]) 0x8018
    t.diag = 0b0001 ∧ t.pc = 0x202 ∧ t.reg 0 = 1 ∧ t.reg 1 = 2 := by decide

/-- Table 2.6. -/
theorem test_cls : let t := ran (withCells [(0, 0), (63, 31)] State.reset) 0x00E0
    litIn [0, 31] t = [] ∧ t.dirty = true := by decide

theorem test_drw_wraps :
    let t := ran (withBytes 0x20A [0xC0, 0x81] { regs [62, 31] with i := 0x20A }) 0xD012
    litIn [0, 1, 30, 31] t = [(5, 0), (62, 0), (62, 31), (63, 31)] ∧ t.reg 15 = 0 ∧ t.dirty = true := by decide

theorem test_drw_collides :
    let t := ran (withCells [(1, 0)] (withBytes 0x300 [0xC0] { State.reset with i := 0x300 })) 0xD001
    litIn [0] t = [(0, 0)] ∧ t.reg 15 = 1 := by decide

/-- The 16x16 form: 32 bytes, the left half of a row at the lower address. -/
theorem test_drw_extended :
    let t := ran (withBytes 0x300 [0x80, 0x01] { State.reset with i := 0x300, ext := true }) 0xD010
    litIn [0, 15] t = [(0, 0), (15, 0)] ∧ t.reg 15 = 0 := by decide

theorem test_scd : litIn [0, 1, 2, 30, 31] (ran (withCells [(3, 0), (3, 30), (3, 31)] State.reset) 0x00C2) = [(3, 2)] := by decide

theorem test_scr :
    litIn [0, 1, 2] (ran (withCells [(0, 0), (59, 1), (60, 1), (63, 2)] State.reset) 0x00FB) = [(4, 0), (63, 1)] := by decide

theorem test_scl :
    litIn [0, 1, 2] (ran (withCells [(0, 0), (3, 1), (4, 1), (63, 2)] State.reset) 0x00FC) = [(0, 1), (59, 2)] := by decide

/-- R134 and R135 with the distance -4, whose value for a source column inside the grid does not depend on the free cells: SCR
gives column 0 the cell of column 4, SCL column 63 that of column 59 (from the rules' formulas, no table). -/
theorem test_scroll_negative :
    let f := (withCells [(4, 0), (59, 1)] State.reset).fb
    (f.scrollRight false (fun _ => 0) (-4)).cell 0 0 = true ∧ (f.scrollRight false (fun _ => 0) (-4)).cell 0 4 = false ∧
    (f.scrollLeft false (fun _ => 0) (-4)).cell 1 63 = true ∧ (f.scrollLeft false (fun _ => 0) (-4)).cell 1 59 = false := by
  decide

theorem test_low : let t := ran (withCells [(1, 1)] { State.reset with ext := true }) 0x00FE
    litIn [1] t = [] ∧ t.ext = false ∧ t.dirty = true := by decide

theorem test_high : let t := ran (withCells [(1, 1)] State.reset) 0x00FF
    litIn [1] t = [] ∧ t.ext = true ∧ t.width = 128 ∧ t.dirty = true := by decide

/-- Table 2.7. -/
theorem test_skp : (ran (after (.setKey 7 true) (regs [0x17])) 0xE09E).pc = 0x204 ∧ (ran (regs [0x17]) 0xE09E).pc = 0x202 := by decide

theorem test_sknp : (ran (after (.setKey 7 true) (regs [0x17])) 0xE0A1).pc = 0x202 ∧ (ran (regs [7]) 0xE0A1).pc = 0x204 := by decide

theorem test_ld_vx_dt : (ran { State.reset with dt := 0x2C } 0xF307).reg 3 = 0x2C := by decide

theorem test_ld_dt_vx : (ran (regs [3]) 0xF015).dt = 3 ∧ (ran (regs [3]) 0xF015).st = 0 := by decide

theorem test_ld_st_vx : (ran (regs [0x10]) 0xF018).st = 0x10 ∧ (ran (regs [0x10]) 0xF018).dt = 0 := by decide

theorem test_key_wait : (ran State.reset 0xF50A).pc = 0x200 ∧
    (ran (after (.setKey 3 true) (after (.setKey 9 true) State.reset)) 0xF50A).reg 5 = 3 := by decide

/-- Table 2.7: the timed tick at exactly the period, and half a period early. -/
theorem test_timed_tick : (after (.tickTimers 2) { State.reset with dt := 5 }).dt = 4 ∧
    (after (.tickTimers 1) { State.reset with dt := 5 }).dt = 5 ∧
    (after (.tickTimers 120) { State.reset with dt := 5 }).dt = 4 := by decide

theorem test_ticks : (after .tickDT { State.reset with dt := 3, st := 1 }).dt = 2 ∧
    (after .tickDT { State.reset with dt := 3, st := 1 }).st = 1 ∧ (after .tickDT State.reset).dt = 0 ∧
    (after .tickST { State.reset with st := 1 }).st = 0 := by decide

/-- Table 2.8: a load up to the last byte, and one byte too far. -/
theorem test_load : (after (.load [1, 2, 3] 0xFFD) State.reset).readByte 0xFFF = 3 ∧
    (after (.load [1, 2, 3] 0xFFD) State.reset).loadResult = some .ok ∧
    (after (.load [1, 2, 3] 0xFFE) State.reset).loadResult = some .loadError ∧
    (after (.load [1, 2, 3] 0xFFE) State.reset).mem = [] := by decide

/-- Table 2.8, Reset: the font is back, the program is gone. -/
theorem test_reset : let t := after (.reset 7) (withBytes 0x000 [0, 0] (withBytes 0x200 [0x60] (regs [1])))
    t.readByte 0 = 0xF0 ∧ t.readByte 1 = 0x90 ∧ t.readByte 0x200 = 0 ∧ t.reg 0 = 0 ∧ t.pc = 0x200 ∧ t.lastDT = 7 := by decide

/-! ## Witnesses: for every statement with hypotheses, a state and operands that meet them all, each clause of its own, at the
values where clauses meet -/

/-- An answer is a next state with a property. -/
def holds (p : State → Bool) : Result → Bool
  | .next t => p t
  | .fault _ => false
  | .refused _ => false

theorem of_holds {p : State → Bool} {r : Result} (h : holds p r = true) : ∃ t, r = .next t ∧ p t = true := by
  cases r with
  | next t => exact ⟨t, rfl, h⟩
  | fault f => exact nomatch f
  | refused f => simp [holds] at h

/-- A state about to step the CPU through the word `w`. -/
def poised (w : Nat) (s : State) : State :=
  ({ s with pending := [.step 0xA7] }).withFetchWord 16 w

theorem witness_EncodeOfDecodeIsTheWord :
    decodeWord 0x512F = .instr (.seReg 1 2) ∧ decodeWord 0x6005 = .instr (.ldImm 0 5) := by decide

theorem witness_DecodePicksTheOneFittingRow :
    decodeWord 0x00CF = .instr (.scd 0xF) ∧ decodeWord 0x00D0 = .unknown .family0 := by decide

theorem witness_UnknownWordsAreExactlyTheFourRows :
    unknownWord 0x00BF = true ∧ unknownWord 0x00C0 = false ∧ unknownWord 0x00CF = false ∧ unknownWord 0x00D0 = true ∧
    unknownWord 0x0FFF = true ∧ unknownWord 0x1000 = false := by decide

theorem witness_ResetHoldsTheResetTable :
    State.reset.readByte 79 = smallFont[79] ∧ State.reset.readByte 0x0F0 = 0 ∧ State.reset.readByte 4095 = 0 ∧
    (∀ i < 160, (defaultConfig.bigFontBase.toNat + i) % 4096 ≠ 79) ∧ 80 ≤ defaultConfig.bigFontBase.toNat + 0 ∧
    (∀ i < 160, (defaultConfig.bigFontBase.toNat + i) % 4096 ≠ 0x0F0) := by
  have hb : defaultConfig.bigFontBase.toNat = 0x050 := rfl
  refine ⟨by decide, by decide, by decide, ?_, by decide, ?_⟩ <;> intro i hi <;> rw [hb] <;> omega

/-- The large font of another configuration, at the last base from which it ends inside memory. -/
theorem witness_ResetHoldsTheResetTable_large :
    let q := { defaultConfig with bigFontBase := 0xF60, fontLarge := defaultConfig.fontLarge.set 159 0x3C }
    (State.resetWith q 7).readByte 0xFFF = 0x3C ∧ q.bigFontBase.toNat + 159 < 4096 ∧
    (∀ i < 160, (q.bigFontBase.toNat + i) % 4096 ≠ 80) := by
  refine ⟨by decide, by decide, fun i hi => ?_⟩
  show (0xF60 + i) % 4096 ≠ 80
  omega

/-- The columns where the clauses meet, for the distances 4 and -4 on the 64-column grid. -/
theorem witness_ScrollsShiftTheGrid :
    State.reset.width = 64 ∧ State.reset.cfg.scrollH = 4 ∧ (63 : Int) - 4 < 64 ∧ ¬ (4 : Int) ≤ 3 ∧
    (59 : Int) - -4 < 64 ∧ (0 : Int) ≤ 4 + -4 ∧ (59 : Int) + 4 ≤ 64 - 1 ∧ ¬ (60 : Int) + 4 ≤ 64 - 1 := by decide

theorem witness_EveryStepKeepsTheInvariant : (poised 0xF033 { regs [123] with i := 0x300 }).Inv ∧
    ∃ t, step (poised 0xF033 { regs [123] with i := 0x300 }) = .next t ∧
      decide (t.mem ≠ (poised 0xF033 { regs [123] with i := 0x300 }).mem) = true :=
  ⟨⟨by decide, Frame.clear_confined _⟩, of_holds (by decide)⟩

theorem witness_StepRunsTheDecodedInstruction :
    State.reset.pending = [] ∧ (poised 0x6005 State.reset).pending = .step 0xA7 :: [] ∧
    decodeWord ((poised 0x6005 State.reset).readByte 0x200 ++ (poised 0x6005 State.reset).readByte 0x201) =
      .instr (.ldImm 0 5) ∧
    decodeWord (State.reset.readByte 0x200 ++ State.reset.readByte 0x201) = .unknown .family0 := by decide

/-- Each cause, and with the other bits clear; the last one at the highest address that raises nothing. -/
theorem witness_DiagnosticsAreRaisedExactlyForTheirCauses :
    (∃ t, cpuStep 0 State.reset = .next t ∧ (t.diag == 0b0001) = true) ∧
    (∃ t, cpuStep 0 (poised 0x00EE State.reset) = .next t ∧ (t.diag == 0b0010) = true) ∧
    (∃ t, cpuStep 0 (poised 0x2400 { State.reset with sp := 16 }) = .next t ∧ (t.diag == 0b0100) = true) ∧
    (∃ t, cpuStep 0 (poised 0x00E0 { State.reset with pc := 0xFFF }) = .next t ∧ (t.diag == 0b1000) = true) ∧
    (∃ t, cpuStep 0 (poised 0xF033 { State.reset with i := 0xFFE }) = .next t ∧ (t.diag == 0b1000) = true) ∧
    (∃ t, cpuStep 0 (poised 0xF033 { State.reset with i := 0xFFD }) = .next t ∧ (t.diag == 0) = true) :=
  ⟨of_holds (by decide), of_holds (by decide), of_holds (by decide), of_holds (by decide), of_holds (by decide),
    of_holds (by decide)⟩

theorem witness_NoStepChangesTheConfiguration :
    ∃ t, step { State.reset with pending := [.reset 7] } = .next t ∧ (t.lastDT == 7) = true :=
  of_holds (by decide)

theorem witness_OnlyDisplayInstructionsWriteTheDisplay :
    (∃ t, exec (.ldImm 0 1) State.reset = .next t ∧ !(Instr.ldImm 0 1).drawsOrScrolls = true) ∧
    (∃ t, exec (.scd 0) State.reset = .next t ∧ (Instr.scd 0).drawsOrScrolls = true) :=
  ⟨of_holds (p := fun _ => !(Instr.ldImm 0 1).drawsOrScrolls) (by decide),
    of_holds (p := fun _ => (Instr.scd 0).drawsOrScrolls) (by decide)⟩

theorem witness_ModeChangesOnlyByLowAndHighAndClears :
    (∃ t, exec .high State.reset = .next t ∧ (t.ext != State.reset.ext) = true) ∧
    (∃ t, exec .low State.reset = .next t ∧ (t.ext == State.reset.ext) = true) :=
  ⟨of_holds (by decide), of_holds (by decide)⟩

theorem witness_RegistersChangeOnlyAsDestinationOrFlag :
    (∃ t, exec (.ldImm 3 7) State.reset = .next t ∧ (t.reg 3 != State.reset.reg 3) = true) ∧
    (∃ t, exec (.addReg 0 1) (regs [0xFF, 1]) = .next t ∧ (t.reg 15 != (regs [0xFF, 1]).reg 15) = true) ∧
    (Instr.addReg 0 1).writesFlag = true :=
  ⟨of_holds (by decide), of_holds (by decide), by decide⟩

theorem witness_StackAuxAndTimersHaveOneWriterEach :
    (∃ t, exec (.call 0x400) State.reset = .next t ∧
      decide (t.stack ≠ State.reset.stack ∧ t.sp ≠ State.reset.sp) = true) ∧
    (∃ t, exec .ret { State.reset with sp := 1 } = .next t ∧ (t.sp != 1) = true) ∧
    (∃ t, exec (.ldRVx 0) (regs [1]) = .next t ∧ decide (t.aux ≠ (regs [1]).aux) = true) ∧
    (∃ t, exec (.ldDTVx 0) (regs [1]) = .next t ∧ (t.dt != 0) = true) ∧
    (∃ t, exec (.ldSTVx 0) (regs [1]) = .next t ∧ (t.st != 0) = true) :=
  ⟨of_holds (by decide), of_holds (by decide), of_holds (by decide), of_holds (by decide), of_holds (by decide)⟩

theorem witness_InstructionsLeaveTheOutsideAlone :
    ∃ t, exec (.ldVxK 0) (after (.setKey 7 true) State.reset) = .next t ∧ (t.reg 0 == 7) = true :=
  of_holds (by decide)

theorem witness_OnlyTheTwoStoresWriteMemory :
    (∃ t, exec (.ldVxMem 2) State.reset = .next t ∧ (t.reg 0 == 0xF0) = true) ∧
    ∀ x, Instr.ldVxMem 2 ≠ .ldB x ∧ Instr.ldVxMem 2 ≠ .ldMemVx x :=
  ⟨of_holds (by decide), by decide⟩

theorem witness_TimersRiseOnlyByTheirLoads :
    (∃ t, step (poised 0xF015 (regs [3])) = .next t ∧ decide ((poised 0xF015 (regs [3])).dt.toNat < t.dt.toNat) = true) ∧
    (∃ t, step (poised 0xF018 (regs [3])) = .next t ∧ decide ((poised 0xF018 (regs [3])).st.toNat < t.st.toNat) = true) :=
  ⟨of_holds (by decide), of_holds (by decide)⟩

theorem witness_ProgramsCannotObserveDirtyDiagOrSound :
    let s := { State.reset with dirty := true, diag := 0b1000, st := 7, lastWord := 0x1234, lastDT := 5 }
    s.observable = State.reset.observable ∧ s ≠ State.reset := by
  refine ⟨rfl, fun h => ?_⟩
  exact absurd (congrArg State.dirty h) (by decide)

theorem witness_OnlyRndReadsTheRandomByte :
    ∀ x kk, decodeWord (poised 0x6005 State.reset).fetchWord ≠ .instr (.rnd x kk) := by
  have h : decodeWord (poised 0x6005 State.reset).fetchWord = .instr (.ldImm 0 5) := by decide
  simp [h]

/-- The lowest and the highest stack pointer at which CALL pushes. -/
theorem witness_CallPushesItsOwnAddressAndJumps :
    State.reset.sp.val < 16 ∧ ({ State.reset with sp := 15 } : State).sp.val < 16 := by decide

theorem witness_RetPopsAndAddsTwo :
    ({ State.reset with sp := 1 } : State).sp.val ≠ 0 ∧ ({ State.reset with sp := 16 } : State).sp.val ≠ 0 := by decide

theorem witness_StackGuardsDegradeToNoOps :
    State.reset.sp.val = 0 ∧ ({ State.reset with sp := 16 } : State).sp.val = 16 := by decide

theorem witness_RetAfterCallReturnsBehindTheCall : ({ State.reset with sp := 15 } : State).sp.val < 16 := by decide

theorem witness_InjectedRandomByteReachesTheRegister :
    (poised 0xC00F State.reset).pending = .step 0xA7 :: [] ∧
    decodeWord (poised 0xC00F State.reset).fetchWord = .instr (.rnd 0 0x0F) := by decide

theorem witness_DumpThenLoadRestoresTheRegisters : State.reset.cfg.storeLoadIncrementsIndex = false := by decide

/-- No key; key 0 alone; key 15 alone; keys 3 and 9. -/
theorem witness_KeyWaitGatesThePc :
    (∀ k, State.reset.key k = false) ∧
    ((after (.setKey 0 true) State.reset).key 0 = true ∧ ∀ j : BitVec 4, j < 0 →
      (after (.setKey 0 true) State.reset).key j = false) ∧
    ((after (.setKey 15 true) State.reset).key 15 = true ∧ ∀ j : BitVec 4, j < 15 →
      (after (.setKey 15 true) State.reset).key j = false) ∧
    ((after (.setKey 9 true) (after (.setKey 3 true) State.reset)).key 3 = true ∧ ∀ j : BitVec 4, j < 3 →
      (after (.setKey 9 true) (after (.setKey 3 true) State.reset)).key j = false) := by decide

/-- A state with events queued. -/
def queued (es : List Event) : State := { State.reset with pending := es }

theorem witness_SetKeyWritesOneSlot : (queued [.setKey 15 true, .tickDT]).pending = .setKey 15 true :: [.tickDT] := by decide

theorem witness_TicksDecrementTowardZero :
    (queued [.tickDT]).pending = .tickDT :: [] ∧ (queued [.tickST, .tickDT]).pending = .tickST :: [.tickDT] := by decide

/-- At 2 clock units after reset both ticks are due, at 1 neither. -/
theorem witness_TimedTickIsAnInterleavingOfUntimedTicks :
    (queued [.tickTimers 2]).pending = .tickTimers 2 :: [] ∧ (queued [.tickTimers 1]).pending = .tickTimers 1 :: [] ∧
    State.reset.lastDT + State.reset.cfg.tickPeriod ≤ 2 ∧ ¬ State.reset.lastST + State.reset.cfg.tickPeriod ≤ 1 := by decide

theorem witness_TimerCadenceOverOneSecond : let s := { State.reset with dt := 60, st := 60 }
    s.cfg.tickPeriod = 2 ∧ s.lastDT = 0 ∧ s.lastST = 0 ∧ s.dt.toNat = 60 ∧ s.st.toNat = 60 := by decide

theorem witness_ConsumeFrameClearsOnlyDirty : (queued [.consumeFrame]).pending = .consumeFrame :: [] := by decide

/-- A load that ends exactly at 4096, and one byte beyond. -/
theorem witness_LoadWritesMemoryOrNothing :
    (queued [.load [1, 2, 3] 0xFFD]).pending = .load [1, 2, 3] 0xFFD :: [] ∧
    (0xFFD : Word).toNat + ([1, 2, 3] : List Byte).length ≤ 4096 ∧
    (queued [.load [1, 2, 3] 0xFFE]).pending = .load [1, 2, 3] 0xFFE :: [] ∧
    4096 < (0xFFE : Word).toNat + ([1, 2, 3] : List Byte).length := by decide

theorem witness_ResetReturnsToTheResetState :
    (queued [.reset 7]).pending = .reset 7 :: [] ∧
    (queued [.reset 7, .reset 7, .tickDT]).pending = .reset 7 :: .reset 7 :: [.tickDT] := by decide

end Sys2Proof.Tests
end

section
/-! Control (spec/40_control.md): JP nnn and the skips on a constant. -/

namespace Sys2Proof.Machine

/-- Loading PC with any address, a jump or a skip alike, is a change of PC only. -/
theorem OnlyPc.of_pc_update (s : State) (a : Word) : OnlyPc s { s with pc := a } where
  rest := rfl
  memory _ := rfl

/-- The target of a skip, as a number: four or two past PC, modulo 65536 (R7, R74). -/
theorem toNat_skip_target (pc : Word) (c : Bool) :
    (pc + if c then 4 else 2).toNat = (pc.toNat + if c then 4 else 2) % 65536 := by
  cases c <;> exact BitVec.toNat_add _ _

/-- Settles O23: the next state of JP is the old one with PC updated to the zero-extended target. -/
theorem jumpLoadsTheTarget : Obligations.JumpLoadsTheTarget := by
  intro nnn s
  have target_toNat : (nnn.setWidth 16).toNat = nnn.toNat := BitVec.toNat_setWidth_of_le (by decide)
  exact ⟨_, exec_jp s nnn, target_toNat, OnlyPc.of_pc_update s _⟩

/-- Settles O24: each skip updates PC only, to the target its comparison selects; registers are equal as words exactly when
they are equal as numbers. -/
theorem skipsOnConstantCompare : Obligations.SkipsOnConstantCompare := by
  intro x kk s
  refine ⟨⟨_, exec_seImm s x kk, OnlyPc.of_pc_update s _, ?_⟩, ⟨_, exec_sneImm s x kk, OnlyPc.of_pc_update s _, ?_⟩⟩
  · rw [toNat_skip_target]
    simp only [beq_iff_eq, BitVec.toNat_inj]
  · rw [toNat_skip_target]
    simp only [bne_iff_ne, BitVec.toNat_inj, ne_eq, ite_not]

end Sys2Proof.Machine
end

section
/-! Arithmetic and logic (spec/41_alu.md): LD Vx,kk and ADD Vx,kk. -/

namespace Sys2Proof.Machine

/-- Advancing PC by one instruction, whatever the general registers become, is what `Advances` says (R7). -/
theorem Advances.of_regs_update (s : State) (v : Vector Byte 16) : Advances s { s with v := v, pc := s.pc + 2 } :=
  BitVec.toNat_add s.pc 2

/-- Loading the general registers and PC with any values is a change of these only. -/
theorem OnlyRegs.of_regs_update (s : State) (v : Vector Byte 16) (a : Word) : OnlyRegs s { s with v := v, pc := a } where
  rest := rfl
  memory _ := rfl

/-- The registers, as numbers, of a state that takes over the register file of one register write. -/
theorem toNat_reg_of_setReg (s : State) (x r : RegIdx) (b : Byte) (a : Word) :
    (({ s with v := (s.setReg x b).v, pc := a } : State).reg r).toNat = if r = x then b.toNat else (s.reg r).toNat := by
  have same_file : ({ s with v := (s.setReg x b).v, pc := a } : State).reg r = (s.setReg x b).reg r :=
    State.reg_congr rfl r
  rw [same_file, State.reg_setReg, apply_ite BitVec.toNat]

/-- Settles O31: both instructions are one write to V[x], of the constant or of the sum, and an advance of PC; the sum of two
bytes is the sum of their numbers modulo 256 (R91, R92). -/
theorem immediateLoadAndAdd : Obligations.ImmediateLoadAndAdd := by
  intro x kk s
  refine ⟨⟨_, exec_ldImm s x kk, Advances.of_regs_update s _, OnlyRegs.of_regs_update s _ _, fun r => ?_⟩,
    ⟨_, exec_addImm s x kk, Advances.of_regs_update s _, OnlyRegs.of_regs_update s _ _, fun r => ?_⟩⟩
  · exact toNat_reg_of_setReg s x r kk _
  · have sum_toNat : (s.reg x + kk).toNat = ((s.reg x).toNat + kk.toNat) % 256 := BitVec.toNat_add _ _
    rw [toNat_reg_of_setReg, sum_toNat]

end Sys2Proof.Machine
end

section
/-! Index register and memory (spec/42_index_memory.md): LD I,nnn. -/

namespace Sys2Proof.Machine

/-- Advancing PC by one instruction, whatever I becomes, is what `Advances` says (R7). -/
theorem Advances.of_index_update (s : State) (a : Word) : Advances s { s with i := a, pc := s.pc + 2 } :=
  BitVec.toNat_add s.pc 2

/-- Loading I and PC with any values is a change of these only. -/
theorem OnlyIndex.of_index_update (s : State) (a b : Word) : OnlyIndex s { s with i := a, pc := b } where
  rest := rfl
  memory _ := rfl

/-- Settles O37: the next state of LD I,nnn is the old one with I loaded with the zero-extended operand and PC advanced
(R110); widening 12 bits to 16 loses nothing. -/
theorem loadIndexImmediate : Obligations.LoadIndexImmediate := by
  intro nnn s
  have operand_toNat : (nnn.setWidth 16).toNat = nnn.toNat := BitVec.toNat_setWidth_of_le (by decide)
  exact ⟨_, exec_ldI s nnn, operand_toNat, Advances.of_index_update s _, OnlyIndex.of_index_update s _ _⟩

end Sys2Proof.Machine
end

section
/-! Timers and keypad (spec/44_timer_keypad.md): LD Vx,DT, LD DT,Vx and LD ST,Vx. -/

namespace Sys2Proof.Machine

/-- Advancing PC by one instruction, whatever the two timers become, is what `Advances` says (R7). -/
theorem Advances.of_timers_update (s : State) (d e : Byte) : Advances s { s with dt := d, st := e, pc := s.pc + 2 } :=
  BitVec.toNat_add s.pc 2

/-- Memory has no part in the timers and PC. -/
theorem SameMemory.of_timers_update (s : State) (d e : Byte) (a : Word) :
    SameMemory s { s with dt := d, st := e, pc := a } :=
  fun b => State.readByte_congr rfl rfl b

/-- The registers of a state that takes over the register file of one register write. -/
theorem reg_of_setReg (s : State) (x r : RegIdx) (b : Byte) (a : Word) :
    ({ s with v := (s.setReg x b).v, pc := a } : State).reg r = if r = x then b else s.reg r :=
  (State.reg_congr rfl r).trans (State.reg_setReg s x r b)

/-- Settles O50: LD Vx,DT is one write of DT to V[x] (R152); LD DT,Vx and LD ST,Vx load one timer with V[x] and leave the
other as it is (R153, R154); each then advances PC. -/
theorem timerTransfersCopy : Obligations.TimerTransfersCopy := by
  intro x s
  refine ⟨⟨_, exec_ldVxDT s x, ?_⟩, ⟨_, exec_ldDTVx s x, ?_⟩, ⟨_, exec_ldSTVx s x, ?_⟩⟩
  · exact ⟨Advances.of_regs_update s _, OnlyRegs.of_regs_update s _ _, fun r => reg_of_setReg s x r s.dt _⟩
  · exact ⟨Advances.of_timers_update s (s.reg x) s.st, rfl, rfl, SameMemory.of_timers_update s (s.reg x) s.st _⟩
  · exact ⟨Advances.of_timers_update s s.dt (s.reg x), rfl, rfl, SameMemory.of_timers_update s s.dt (s.reg x) _⟩

end Sys2Proof.Machine
end

section
/-! The host's ports (spec/60_exceptions.md): the framebuffer read. -/

namespace Sys2Proof.Machine

theorem State.width_pos (s : State) : 0 < s.width := gridWidth_pos s.ext

theorem State.length_framebuffer_cells (s : State) : s.framebuffer.2.2.length = s.width * s.height :=
  (List.length_map _).trans List.length_range

/-- Reading the cell list back: an index below W*H is the cell at its quotient and remainder by W. -/
theorem State.getElem?_framebuffer_cells (s : State) {j : Nat} (hj : j < s.width * s.height) :
    s.framebuffer.2.2[j]? = some (s.fb.cell (j / s.width) (j % s.width)) := by
  simp [State.framebuffer, List.getElem?_range hj]

/-- Settles O59: the index row*W + col is below W*H, and dividing it by W gives back the row and the column (R186). -/
theorem framebufferIsRowMajor : Obligations.FramebufferIsRowMajor := by
  intro s
  refine ⟨rfl, rfl, s.length_framebuffer_cells, fun row col hrow hcol => ?_⟩
  change row < s.height at hrow
  change col < s.width at hcol
  change s.framebuffer.2.2[row * s.width + col]? = _
  have index_lt : row * s.width + col < s.width * s.height := by
    simpa only [Nat.mul_comm] using Nat.mul_add_lt_mul_of_lt_of_lt hrow hcol
  have index_div : (row * s.width + col) / s.width = row := by
    rw [Nat.mul_comm, Nat.mul_add_div s.width_pos, Nat.div_eq_of_lt hcol, Nat.add_zero]
  rw [s.getElem?_framebuffer_cells index_lt, index_div, Nat.mul_add_mod_of_lt hcol]

end Sys2Proof.Machine
end

section
/-! The decoder and the encoder (spec/30_encoding.md R51 to R58): the fields of an encoded word, the word of its fields, which
words the dispatch knows, and the statements about decoding. -/

namespace Sys2Proof

/-! ## The fields of an encoded word, and the word of its fields -/

@[simp] theorem opField_encodeA (op : BitVec 4) (nnn : Addr12) : opField (encodeA op nnn) = op :=
  BitVec.extractLsb'_append_eq_left

@[simp] theorem nnnField_encodeA (op : BitVec 4) (nnn : Addr12) : nnnField (encodeA op nnn) = nnn :=
  BitVec.extractLsb'_append_eq_right

@[simp] theorem opField_encodeXK (op : BitVec 4) (x : RegIdx) (kk : Byte) : opField (encodeXK op x kk) = op :=
  (BitVec.extractLsb'_append_eq_of_le (by decide)).trans BitVec.extractLsb'_append_eq_left

@[simp] theorem xField_encodeXK (op : BitVec 4) (x : RegIdx) (kk : Byte) : xField (encodeXK op x kk) = x :=
  (BitVec.extractLsb'_append_eq_of_le (by decide)).trans BitVec.extractLsb'_append_eq_right

@[simp] theorem kkField_encodeXK (op : BitVec 4) (x : RegIdx) (kk : Byte) : kkField (encodeXK op x kk) = kk :=
  BitVec.extractLsb'_append_eq_right

/-- The top three fields of format XYN are the fields of format XK, with `y` and `n` in place of `kk`. -/
theorem encodeXYN_eq_encodeXK (op : BitVec 4) (x y : RegIdx) (n : Nibble) :
    encodeXYN op x y n = encodeXK op x (y ++ n) :=
  BitVec.append_assoc (x₁ := op ++ x)

@[simp] theorem opField_encodeXYN (op : BitVec 4) (x y : RegIdx) (n : Nibble) : opField (encodeXYN op x y n) = op := by
  rw [encodeXYN_eq_encodeXK, opField_encodeXK]

@[simp] theorem xField_encodeXYN (op : BitVec 4) (x y : RegIdx) (n : Nibble) : xField (encodeXYN op x y n) = x := by
  rw [encodeXYN_eq_encodeXK, xField_encodeXK]

@[simp] theorem yField_encodeXYN (op : BitVec 4) (x y : RegIdx) (n : Nibble) : yField (encodeXYN op x y n) = y :=
  (BitVec.extractLsb'_append_eq_of_le (by decide)).trans BitVec.extractLsb'_append_eq_right

@[simp] theorem nField_encodeXYN (op : BitVec 4) (x y : RegIdx) (n : Nibble) : nField (encodeXYN op x y n) = n :=
  BitVec.extractLsb'_append_eq_right

theorem encodeA_fields (w : Word) : encodeA (opField w) (nnnField w) = w :=
  BitVec.extractLsb'_append_extractLsb' (w := 4) (len := 12)

theorem encodeXK_fields (w : Word) : encodeXK (opField w) (xField w) (kkField w) = w := by
  have op_x : opField w ++ xField w = w.extractLsb' 8 8 := BitVec.extractLsb'_append_extractLsb'_eq_extractLsb' rfl
  rw [encodeXK, op_x]
  exact BitVec.extractLsb'_append_extractLsb' (w := 8) (len := 8)

theorem encodeXYN_fields (w : Word) : encodeXYN (opField w) (xField w) (yField w) (nField w) = w := by
  have y_n : yField w ++ nField w = kkField w := BitVec.extractLsb'_append_extractLsb'_eq_extractLsb' rfl
  rw [encodeXYN_eq_encodeXK, y_n, encodeXK_fields]

/-! ## Decoding an encoding -/

/-- Settles O2: the decoder finds every field the format of the instruction placed; the family and the sub-operation then
select the instruction's own branch of the dispatch. -/
theorem decodeOfEncodeIsTheInstruction : Obligations.DecodeOfEncodeIsTheInstruction := by
  intro i
  cases i with
  | cls | ret | scr | scl | low | high => decide
  | scd n => revert n; decide
  | jp | call | ldI | jpV0 => simp [encode, decodeWord]
  | seImm | sneImm | ldImm | addImm | rnd => simp [encode, decodeWord]
  | seReg | sneReg | drw => simp [encode, decodeWord]
  | ldReg | orReg | andReg | xorReg | addReg | sub | shr | subn | shl => simp [encode, decodeWord, decodeFamily8]
  | skp | sknp => simp [encode, decodeWord, decodeFamilyE]
  | ldVxDT | ldVxK | ldDTVx | ldSTVx | addI | ldF | ldHF | ldB | ldMemVx | ldVxMem | ldRVx | ldVxR =>
    simp [encode, decodeWord, decodeFamilyF]

/-! ## Which words the dispatch knows -/

/-- The family 0 words of R54 with no operand. -/
def wholeWords : List Word := [0x00E0, 0x00EE, 0x00FB, 0x00FC, 0x00FE, 0x00FF]

/-- The sub-operations of family 8 (R54). -/
def subOps8 : List Nibble := [0x0, 0x1, 0x2, 0x3, 0x4, 0x5, 0x6, 0x7, 0xE]

/-- The sub-operations of family E (R54). -/
def subOpsE : List Byte := [0x9E, 0xA1]

/-- The sub-operations of family F (R54). -/
def subOpsF : List Byte := [0x07, 0x0A, 0x15, 0x18, 0x1E, 0x29, 0x30, 0x33, 0x55, 0x65, 0x75, 0x85]

theorem opField_toNat (w : Word) : (opField w).toNat = w.toNat / 0x1000 := by
  simp [opField, BitVec.extractLsb'_toNat, Nat.shiftRight_eq_div_pow]
  omega

theorem opField_eq_iff (w : Word) (op : BitVec 4) : opField w = op ↔ w.toNat / 0x1000 = op.toNat := by
  rw [← BitVec.toNat_inj, opField_toNat]

theorem nField_toNat (w : Word) : (nField w).toNat = w.toNat % 16 := by
  simp [nField, BitVec.extractLsb'_toNat]

theorem kkField_toNat (w : Word) : (kkField w).toNat = w.toNat % 256 := by
  simp [kkField, BitVec.extractLsb'_toNat]

theorem unknownWord_family0 {w : Word} (hop : opField w = 0x0) :
    unknownWord w = true ↔ w.extractLsb' 4 12 ≠ 0x00C ∧ w ∉ wholeWords := by
  have hw : w.toNat / 0x1000 = 0 := (opField_eq_iff w _).mp hop
  have hscd : w.extractLsb' 4 12 = 0x00C ↔ 0x00C0 ≤ w.toNat ∧ w.toNat ≤ 0x00CF := by
    rw [← BitVec.toNat_inj, BitVec.extractLsb'_toNat, Nat.shiftRight_eq_div_pow]
    simp
    omega
  have hlt : w.toNat < 0x1000 := by omega
  rw [ne_eq, hscd]
  simp [unknownWord, unknownFamily0, unknownFamily8, unknownFamilyE, unknownFamilyF, wholeWords, hw, hlt, and_assoc]
  omega

theorem unknownWord_family8 {w : Word} (hop : opField w = 0x8) : unknownWord w = true ↔ nField w ∉ subOps8 := by
  have hw : w.toNat / 0x1000 = 8 := (opField_eq_iff w _).mp hop
  have table : ∀ n : Nibble, [0x8, 0x9, 0xA, 0xB, 0xC, 0xD, 0xF].contains n.toNat = true ↔ n ∉ subOps8 := by decide
  rw [← table, nField_toNat]
  simp [unknownWord, unknownFamily0, unknownFamily8, unknownFamilyE, unknownFamilyF, hw]
  omega

theorem unknownWord_familyE {w : Word} (hop : opField w = 0xE) : unknownWord w = true ↔ kkField w ∉ subOpsE := by
  have hw : w.toNat / 0x1000 = 0xE := (opField_eq_iff w _).mp hop
  have table : ∀ kk : Byte, [0x9E, 0xA1].contains kk.toNat = true ↔ kk ∈ subOpsE := by decide
  rw [← table, kkField_toNat]
  simp [unknownWord, unknownFamily0, unknownFamily8, unknownFamilyE, unknownFamilyF, hw]
  omega

theorem unknownWord_familyF {w : Word} (hop : opField w = 0xF) : unknownWord w = true ↔ kkField w ∉ subOpsF := by
  have hw : w.toNat / 0x1000 = 0xF := (opField_eq_iff w _).mp hop
  have table : ∀ kk : Byte,
      [0x07, 0x0A, 0x15, 0x18, 0x1E, 0x29, 0x30, 0x33, 0x55, 0x65, 0x75, 0x85].contains kk.toNat = true ↔ kk ∈ subOpsF := by
    decide
  rw [← table, kkField_toNat]
  simp [unknownWord, unknownFamily0, unknownFamily8, unknownFamilyE, unknownFamilyF, hw]
  omega

theorem unknownWord_otherFamily {w : Word} (h0 : opField w ≠ 0x0) (h8 : opField w ≠ 0x8) (hE : opField w ≠ 0xE)
    (hF : opField w ≠ 0xF) : unknownWord w = false := by
  have not0 : ¬ w.toNat / 0x1000 = 0x0 := (opField_eq_iff w _).not.mp h0
  have not8 : ¬ w.toNat / 0x1000 = 0x8 := (opField_eq_iff w _).not.mp h8
  have notE : ¬ w.toNat / 0x1000 = 0xE := (opField_eq_iff w _).not.mp hE
  have notF : ¬ w.toNat / 0x1000 = 0xF := (opField_eq_iff w _).not.mp hF
  have large : ¬ w.toNat < 0x1000 := by omega
  simp [unknownWord, unknownFamily0, unknownFamily8, unknownFamilyE, unknownFamilyF, large, not8, notE, notF]

/-! ## What the decoder answers -/

/-- A word with the bits a decoder ignores cleared: the low nibble of families 5 and 9 (R58). -/
def canonicalWord (w : Word) : Word :=
  if opField w = 0x5 ∨ opField w = 0x9 then w &&& 0xFFF0 else w

/-- What a right answer of the decoder to a word is: an instruction whose encoding is the word's canonical form, of a word that
is known; or unknown, of a word that is not. -/
def Decoded.RightFor (w : Word) : Decoded → Prop
  | .instr i => unknownWord w = false ∧ encode i = canonicalWord w
  | .unknown _ => unknownWord w = true

theorem encodeA_of_fields {w : Word} {op : BitVec 4} (hop : opField w = op) : encodeA op (nnnField w) = w := by
  rw [← hop, encodeA_fields]

theorem encodeXK_of_fields {w : Word} {op : BitVec 4} {kk : Byte} (hop : opField w = op) (hkk : kkField w = kk) :
    encodeXK op (xField w) kk = w := by
  rw [← hop, ← hkk, encodeXK_fields]

theorem encodeXYN_of_fields {w : Word} {op : BitVec 4} {n : Nibble} (hop : opField w = op) (hn : nField w = n) :
    encodeXYN op (xField w) (yField w) n = w := by
  rw [← hop, ← hn, encodeXYN_fields]

/-- Clearing the low nibble leaves the other three fields. -/
theorem and_fff0 (w : Word) : w &&& 0xFFF0 = encodeXYN (opField w) (xField w) (yField w) 0 := by
  conv_lhs => rw [← encodeXYN_fields w]
  show opField w ++ xField w ++ yField w ++ nField w &&& 15#4 ++ 15#4 ++ 15#4 ++ 0#4 =
    opField w ++ xField w ++ yField w ++ 0#4
  simp only [BitVec.and_append, BitVec.and_zero, show 15#4 = BitVec.allOnes 4 from rfl, BitVec.and_allOnes]

/-- One branch of the dispatch. -/
theorem Decoded.RightFor.ite {w : Word} {c : Prop} [Decidable c] {a b : Decoded} (taken : c → a.RightFor w)
    (passed : ¬ c → b.RightFor w) : (if c then a else b).RightFor w :=
  iteInduction taken passed

theorem canonicalWord_eq_self {w : Word} {op : BitVec 4} (hop : opField w = op) (h : op ≠ 0x5 ∧ op ≠ 0x9) :
    canonicalWord w = w :=
  if_neg (by rw [hop]; tauto)

theorem decodeFamily0_rightFor {w : Word} (hop : opField w = 0x0) : (decodeFamily0 w).RightFor w := by
  have canonical := canonicalWord_eq_self hop (by decide)
  have known (h : w.extractLsb' 4 12 = 0x00C ∨ w ∈ wholeWords) : unknownWord w = false := by
    rw [← Bool.not_eq_true, unknownWord_family0 hop]; tauto
  have known_whole {k : Word} (h : w = k) (hk : k ∈ wholeWords) : unknownWord w = false := known (.inr (h ▸ hk))
  unfold decodeFamily0
  refine .ite (fun h => ⟨known (.inl h), ?_⟩) fun _ => ?_
  · have fields := BitVec.extractLsb'_append_extractLsb' (w := 12) (len := 4) (x := w)
    rw [h] at fields
    exact fields.trans canonical.symm
  iterate 6 refine .ite (fun h => ⟨known_whole h (by decide), h.symm.trans canonical.symm⟩) fun _ => ?_
  exact (unknownWord_family0 hop).mpr ⟨‹_›, by simp_all [wholeWords]⟩

theorem decodeFamily8_rightFor {w : Word} (hop : opField w = 0x8) : (decodeFamily8 w).RightFor w := by
  have canonical := canonicalWord_eq_self hop (by decide)
  have known {n : Nibble} (h : nField w = n) (hn : n ∈ subOps8) : unknownWord w = false := by
    rw [← Bool.not_eq_true, unknownWord_family8 hop]; simpa [h] using hn
  unfold decodeFamily8
  iterate 9 refine .ite (fun h => ⟨known h (by decide), (encodeXYN_of_fields hop h).trans canonical.symm⟩) fun _ => ?_
  exact (unknownWord_family8 hop).mpr (by simp_all [subOps8])

theorem decodeFamilyE_rightFor {w : Word} (hop : opField w = 0xE) : (decodeFamilyE w).RightFor w := by
  have canonical := canonicalWord_eq_self hop (by decide)
  have known {kk : Byte} (h : kkField w = kk) (hk : kk ∈ subOpsE) : unknownWord w = false := by
    rw [← Bool.not_eq_true, unknownWord_familyE hop]; simpa [h] using hk
  unfold decodeFamilyE
  iterate 2 refine .ite (fun h => ⟨known h (by decide), (encodeXK_of_fields hop h).trans canonical.symm⟩) fun _ => ?_
  exact (unknownWord_familyE hop).mpr (by simp_all [subOpsE])

theorem decodeFamilyF_rightFor {w : Word} (hop : opField w = 0xF) : (decodeFamilyF w).RightFor w := by
  have canonical := canonicalWord_eq_self hop (by decide)
  have known {kk : Byte} (h : kkField w = kk) (hk : kk ∈ subOpsF) : unknownWord w = false := by
    rw [← Bool.not_eq_true, unknownWord_familyF hop]; simpa [h] using hk
  unfold decodeFamilyF
  iterate 12 refine .ite (fun h => ⟨known h (by decide), (encodeXK_of_fields hop h).trans canonical.symm⟩) fun _ => ?_
  exact (unknownWord_familyF hop).mpr (by simp_all [subOpsF])

/-- Families 5 and 9: the canonical form of a word is the encoding of its registers (R58). -/
theorem canonicalWord_of_ignoredNibble {w : Word} {op : BitVec 4} (hop : opField w = op) (h : op = 0x5 ∨ op = 0x9) :
    canonicalWord w = encodeXYN op (xField w) (yField w) 0 := by
  rw [canonicalWord, hop, if_pos h, and_fff0, hop]

/-- An instruction of a family without sub-operations and without ignored bits. -/
theorem Decoded.RightFor.of_encode {w : Word} {i : Instr} {op : BitVec 4} (hop : opField w = op)
    (h : op ∉ [0x0, 0x5, 0x8, 0x9, 0xE, 0xF]) (hi : encode i = w) : (Decoded.instr i).RightFor w := by
  simp only [List.mem_cons, List.not_mem_nil, or_false, not_or] at h
  obtain ⟨h0, h5, h8, h9, hE, hF⟩ := h
  subst hop
  exact ⟨unknownWord_otherFamily h0 h8 hE hF, hi.trans (canonicalWord_eq_self rfl ⟨h5, h9⟩).symm⟩

/-- An instruction of families 5 and 9. -/
theorem Decoded.RightFor.of_ignoredNibble {w : Word} {i : Instr} {op : BitVec 4} (hop : opField w = op)
    (h : op = 0x5 ∨ op = 0x9) (hi : encode i = encodeXYN op (xField w) (yField w) 0) : (Decoded.instr i).RightFor w := by
  refine ⟨?_, hi.trans (canonicalWord_of_ignoredNibble hop h).symm⟩
  subst hop
  rcases h with h | h <;> exact unknownWord_otherFamily (by simp [h]) (by simp [h]) (by simp [h]) (by simp [h])

/-- The decoder's answer is right for every word (R54, R55, R57, R58). -/
theorem decodeWord_rightFor (w : Word) : (decodeWord w).RightFor w := by
  unfold decodeWord
  refine .ite decodeFamily0_rightFor fun _ => ?_
  iterate 2 refine .ite (fun h => .of_encode h (by decide) (encodeA_of_fields h)) fun _ => ?_
  iterate 2 refine .ite (fun h => .of_encode h (by decide) (encodeXK_of_fields h rfl)) fun _ => ?_
  refine .ite (fun h => .of_ignoredNibble h (by decide) rfl) fun _ => ?_
  iterate 2 refine .ite (fun h => .of_encode h (by decide) (encodeXK_of_fields h rfl)) fun _ => ?_
  refine .ite decodeFamily8_rightFor fun _ => ?_
  refine .ite (fun h => .of_ignoredNibble h (by decide) rfl) fun _ => ?_
  iterate 2 refine .ite (fun h => .of_encode h (by decide) (encodeA_of_fields h)) fun _ => ?_
  refine .ite (fun h => .of_encode h (by decide) (encodeXK_of_fields h rfl)) fun _ => ?_
  refine .ite (fun h => .of_encode h (by decide) (encodeXYN_of_fields h rfl)) fun _ => ?_
  refine .ite decodeFamilyE_rightFor fun _ => decodeFamilyF_rightFor ?_
  have families : ∀ op : BitVec 4, op ∈ [0x0, 0x1, 0x2, 0x3, 0x4, 0x5, 0x6, 0x7, 0x8, 0x9, 0xA, 0xB, 0xC, 0xD, 0xE, 0xF] := by
    decide
  have family := families (opField w)
  simp_all only [List.mem_cons, List.not_mem_nil, false_or, or_false]

theorem decodeWord_eq_instr {w : Word} {i : Instr} (h : decodeWord w = .instr i) :
    unknownWord w = false ∧ encode i = canonicalWord w := by
  have right := decodeWord_rightFor w
  rwa [h] at right

theorem decodeWord_eq_unknown {w : Word} {why : Unknown} (h : decodeWord w = .unknown why) : unknownWord w = true := by
  have right := decodeWord_rightFor w
  rwa [h] at right

/-- Settles O3: the decoder's answer is right for every word; the family is the quotient of the word by 0x1000. -/
theorem encodeOfDecodeIsTheWord : Obligations.EncodeOfDecodeIsTheWord := by
  intro w i h
  rw [(decodeWord_eq_instr h).2, canonicalWord, ← opField_toNat]
  simp only [← BitVec.toNat_inj]
  rfl

/-- Settles O5: the decoder's answer is right for every word, and each word has one answer. -/
theorem unknownWordsAreExactlyTheFourRows : Obligations.UnknownWordsAreExactlyTheFourRows := by
  intro w
  constructor
  · rintro ⟨why, h⟩
    exact decodeWord_eq_unknown h
  · intro h
    cases hd : decodeWord w with
    | instr i => simp [(decodeWord_eq_instr hd).1] at h
    | unknown why => exact ⟨why, rfl⟩

/-! ## The rows of the opcode map -/

theorem opcodeRow_mem_opcodeMap (i : Instr) : opcodeRow i ∈ opcodeMap := by
  cases i <;> simp [opcodeRow, opcodeMap, opcodeMapLow, opcodeMapMid, opcodeMapHigh]

theorem OpcodeRow.fits_iff (r : OpcodeRow) (w : Word) : r.fits w = true ↔ w &&& r.mask = r.pattern := beq_iff_eq

/-- Two rows of the map differ at a bit that both fix. -/
theorem opcodeMap_disjoint : ∀ r ∈ opcodeMap, ∀ r' ∈ opcodeMap,
    r.pattern &&& r'.mask = r'.pattern &&& r.mask → r' = r := by
  decide

/-- No word fits two rows (R54). -/
theorem OpcodeRow.fits_unique {r r' : OpcodeRow} {w : Word} (hr : r ∈ opcodeMap) (hr' : r' ∈ opcodeMap)
    (h : r.fits w = true) (h' : r'.fits w = true) : r' = r := by
  rw [OpcodeRow.fits_iff] at h h'
  refine opcodeMap_disjoint r hr r' hr' ?_
  rw [← h, ← h', BitVec.and_assoc, BitVec.and_assoc, BitVec.and_comm r.mask]

/-- Every row fixes the family. -/
theorem opField_of_fits {r : OpcodeRow} {w : Word} (hr : r ∈ opcodeMap) (h : r.fits w = true) :
    opField w = opField r.pattern := by
  have mask : ∀ r ∈ opcodeMap, opField r.mask = BitVec.allOnes 4 := by decide
  rw [← (OpcodeRow.fits_iff r w).mp h, opField, opField, BitVec.extractLsb'_and, ← opField, ← opField, mask r hr,
    BitVec.and_allOnes]

/-- The rows of families 5 and 9 fix the family only. -/
theorem mask_of_ignoredNibble : ∀ r ∈ opcodeMap, opField r.pattern = 0x5 ∨ opField r.pattern = 0x9 → r.mask = 0xF000 := by
  decide

theorem opField_canonicalWord (w : Word) : opField (canonicalWord w) = opField w := by
  unfold canonicalWord
  split
  · rw [and_fff0, opField_encodeXYN]
  · rfl

/-- No row looks at an ignored bit. -/
theorem fits_of_fits_canonicalWord {r : OpcodeRow} {w : Word} (hr : r ∈ opcodeMap) (h : r.fits (canonicalWord w) = true) :
    r.fits w = true := by
  have family : opField r.pattern = opField w := by rw [← opField_of_fits hr h, opField_canonicalWord]
  rw [OpcodeRow.fits_iff] at h ⊢
  by_cases ignored : opField w = 0x5 ∨ opField w = 0x9
  · have mask := mask_of_ignoredNibble r hr (by rwa [family])
    rw [canonicalWord, if_pos ignored, mask, BitVec.and_assoc] at h
    rw [mask]
    exact h
  · rwa [canonicalWord, if_neg ignored] at h

/-- What each row of the map fixes besides the family: nothing, or a known sub-operation, or the whole word but for the
operand of SCD. -/
theorem opcodeMap_subOps : ∀ r ∈ opcodeMap,
    (opField r.pattern ≠ 0x0 ∧ opField r.pattern ≠ 0x8 ∧ opField r.pattern ≠ 0xE ∧ opField r.pattern ≠ 0xF) ∨
    (opField r.pattern = 0x0 ∧ r = ⟨0x00C0, 0xFFF0⟩) ∨
    (opField r.pattern = 0x0 ∧ r.mask = BitVec.allOnes 16 ∧ r.pattern ∈ wholeWords) ∨
    (opField r.pattern = 0x8 ∧ nField r.mask = BitVec.allOnes 4 ∧ nField r.pattern ∈ subOps8) ∨
    (opField r.pattern = 0xE ∧ kkField r.mask = BitVec.allOnes 8 ∧ kkField r.pattern ∈ subOpsE) ∨
    (opField r.pattern = 0xF ∧ kkField r.mask = BitVec.allOnes 8 ∧ kkField r.pattern ∈ subOpsF) := by
  decide

/-- A word that fits a row is known (R54, R57). -/
theorem unknownWord_of_fits {r : OpcodeRow} {w : Word} (hr : r ∈ opcodeMap) (h : r.fits w = true) :
    unknownWord w = false := by
  have family := opField_of_fits hr h
  rw [OpcodeRow.fits_iff] at h
  have nibble : nField w &&& nField r.mask = nField r.pattern := by rw [← h]; exact BitVec.extractLsb'_and.symm
  have low : kkField w &&& kkField r.mask = kkField r.pattern := by rw [← h]; exact BitVec.extractLsb'_and.symm
  rw [← Bool.not_eq_true]
  obtain ⟨h0, h8, hE, hF⟩ | ⟨hop, rfl⟩ | ⟨hop, hm, hp⟩ | ⟨hop, hm, hp⟩ | ⟨hop, hm, hp⟩ | ⟨hop, hm, hp⟩ :=
    opcodeMap_subOps r hr
  · rw [← family] at h0 h8 hE hF
    simp [unknownWord_otherFamily h0 h8 hE hF]
  · have scd : w.extractLsb' 4 12 = 0x00C := by
      have fixed : w.extractLsb' 4 12 &&& BitVec.allOnes 12 = 0x00C := by
        have high := congrArg (BitVec.extractLsb' 4 12) h
        rwa [BitVec.extractLsb'_and] at high
      rwa [BitVec.and_allOnes] at fixed
    rw [unknownWord_family0 (family.trans hop)]
    exact fun unknown => unknown.1 scd
  · rw [hm, BitVec.and_allOnes] at h
    rw [unknownWord_family0 (family.trans hop), h]
    exact fun unknown => unknown.2 hp
  · rw [hm, BitVec.and_allOnes] at nibble
    rwa [unknownWord_family8 (family.trans hop), nibble, not_not]
  · rw [hm, BitVec.and_allOnes] at low
    rwa [unknownWord_familyE (family.trans hop), low, not_not]
  · rw [hm, BitVec.and_allOnes] at low
    rwa [unknownWord_familyF (family.trans hop), low, not_not]

/-- The encoding of an instruction fits the instruction's row (R54). -/
theorem encode_fits (i : Instr) : (opcodeRow i).fits (encode i) = true := by
  rw [OpcodeRow.fits_iff]
  cases i with
  | scd n => exact Laws.FitsOpcodeRow.scd n
  | cls | ret | scr | scl | low | high => decide
  | jp nnn | call nnn | ldI nnn | jpV0 nnn => exact Laws.encodeA_and _ nnn
  | seImm x kk | sneImm x kk | ldImm x kk | addImm x kk | rnd x kk => exact Laws.encodeXK_and _ x kk
  | seReg x y | sneReg x y => exact Laws.encodeXYN_and _ x y 0
  | drw x y n => exact Laws.encodeXYN_and _ x y n
  | ldReg x y | orReg x y | andReg x y | xorReg x y | addReg x y | sub x y | shr x y | subn x y | shl x y =>
    exact Laws.encodeXY_and _ x y _
  | skp x | sknp x | ldVxDT x | ldVxK x | ldDTVx x | ldSTVx x | addI x | ldF x | ldHF x | ldB x | ldMemVx x | ldVxMem x
  | ldRVx x | ldVxR x => exact Laws.encodeX_and _ x _

/-- Settles O4: a decoded word is, up to ignored bits, the encoding of the instruction, which fits the instruction's row, and
no word fits two rows; a word that fits a row is known. -/
theorem decodePicksTheOneFittingRow : Obligations.DecodePicksTheOneFittingRow := by
  intro w
  constructor
  · intro i h
    have own_row : (opcodeRow i).fits w = true := by
      refine fits_of_fits_canonicalWord (opcodeRow_mem_opcodeMap i) ?_
      rw [← (decodeWord_eq_instr h).2]
      exact encode_fits i
    exact ⟨opcodeRow_mem_opcodeMap i, own_row, fun r hr fits =>
      OpcodeRow.fits_unique (opcodeRow_mem_opcodeMap i) hr own_row fits⟩
  · intro why h r hr
    rw [← Bool.not_eq_true]
    intro fits
    simpa [unknownWord_of_fits hr fits] using decodeWord_eq_unknown h

/-- Settles O1: each word is written out, and the decoder runs on it. -/
theorem sampleWordsDecode : Obligations.SampleWordsDecode := by
  unfold Obligations.SampleWordsDecode
  decide

end Sys2Proof
end

section
/-! What each instruction does to the state, said once for all 42: which fields it changes, who may change a register, and what
DIAG becomes. The statements about every instruction and about every step follow from it. -/

namespace Sys2Proof

/-- The instructions that work on the stack. -/
def Instr.usesStack : Instr → Bool
  | .ret | .call _ => true
  | _ => false

theorem Instr.usesStack_of_draws {i : Instr} (h : i.drawsOrScrolls = true) : i.usesStack = false := by
  cases i <;> simp [Instr.drawsOrScrolls, Instr.usesStack] at h ⊢

end Sys2Proof

namespace Sys2Proof.Machine

theorem reg_of_file (s u : State) (r : RegIdx) : ({ s with v := u.v } : State).reg r = u.reg r := rfl

/-- A register file that an instruction may leave (R11): it differs from the old one only at a named destination, or at VF where
the instruction writes the flag, and then VF is 0 or 1. -/
structure RegsWritable (i : Instr) (s : State) (v : Vector Byte 16) : Prop where
  dest : ∀ r, ({ s with v := v } : State).reg r ≠ s.reg r → i.isDest r = true ∨ (r = 15 ∧ i.writesFlag = true)
  flag : i.writesFlag = true → ({ s with v := v } : State).reg 15 = 0 ∨ ({ s with v := v } : State).reg 15 = 1

/-- What an instruction may make of a state, by the fields it changes. -/
inductive Effect (s : State) : Instr → State → Prop
  /-- registers, I and PC, and DIAG by the addresses accessed -/
  | compute {i : Instr} (v : Vector Byte 16) (a p : Word) (quiet : i.drawsOrScrolls = false ∧ i.usesStack = false)
      (regs : RegsWritable i s v) :
      Effect s i { s with v := v, i := a, pc := p, diag := diagAfter s.diag s.i.toNat (s.accesses i) }
  /-- the picture, DIRTY and perhaps the mode; DRW also VF and DIAG -/
  | picture {i : Instr} (v : Vector Byte 16) (f : Frame) (draws : i.drawsOrScrolls = true) (regs : RegsWritable i s v)
      (confined : Frame.confined s.ext s.fb → Frame.confined s.ext f) (same_mode : i ≠ .low ∧ i ≠ .high) :
      Effect s i { s with
        v := v, fb := f, dirty := true, pc := s.pc + 2, diag := diagAfter s.diag s.i.toNat (s.accesses i) }
  /-- the mode, over a cleared picture -/
  | mode {i : Instr} (e : Bool) (toggle : i = .low ∨ i = .high) :
      Effect s i { s with ext := e, fb := Frame.clear, dirty := true, pc := s.pc + 2 }
  /-- memory, I and DIAG -/
  | store {i : Instr} (m : Memory) (a : Word) (stores : ∃ x, i = .ldB x ∨ i = .ldMemVx x)
      (wf : Memory.wf s.cfg s.mem → Memory.wf s.cfg m) :
      Effect s i { s with mem := m, i := a, pc := s.pc + 2, diag := diagAfter s.diag s.i.toNat (s.accesses i) }
  | callPush (nnn : Addr12) (h : s.sp.val < 16) :
      Effect s (.call nnn) { s with
        stack := s.stack.set s.sp.val s.pc h, sp := ⟨s.sp.val + 1, by omega⟩, pc := nnn.setWidth 16 }
  | callFull (nnn : Addr12) (h : ¬ s.sp.val < 16) :
      Effect s (.call nnn) { s with diag := s.diag ||| 0b0100, pc := s.pc + 2 }
  | retPop (h : ¬ s.sp.val = 0) : Effect s .ret { s with sp := ⟨s.sp.val - 1, by omega⟩, pc := s.top + 2 }
  | retEmpty (h : s.sp.val = 0) : Effect s .ret { s with diag := s.diag ||| 0b0010, pc := s.pc + 2 }
  | storeAux (x : RegIdx) (aux : Vector Byte 16) : Effect s (.ldRVx x) { s with aux := aux, pc := s.pc + 2 }
  | setDT (x : RegIdx) : Effect s (.ldDTVx x) { s with dt := s.reg x, pc := s.pc + 2 }
  | setST (x : RegIdx) : Effect s (.ldSTVx x) { s with st := s.reg x, pc := s.pc + 2 }

namespace RegsWritable

variable {i : Instr} {s : State}

theorem of_unchanged (hi : i.writesFlag = false) : RegsWritable i s s.v where
  dest r h := absurd rfl h
  flag h := by simp [hi] at h

theorem of_setReg {x : RegIdx} (b : Byte) (hx : i.isDest x = true) (hi : i.writesFlag = false) :
    RegsWritable i s (s.setReg x b).v where
  dest r h := by
    rw [reg_of_file, State.reg_setReg] at h
    split at h
    · subst_vars; exact .inl hx
    · exact absurd rfl h
  flag h := by simp [hi] at h

theorem flagByte_eq (c : Bool) : flagByte c = 0 ∨ flagByte c = 1 := by cases c <;> simp [flagByte]

theorem of_setFlag (c : Bool) (hi : i.writesFlag = true) : RegsWritable i s (s.setFlag c).v where
  dest r h := by
    rw [reg_of_file, State.reg_setFlag] at h
    split at h
    · exact .inr ⟨‹_›, hi⟩
    · exact absurd rfl h
  flag _ := by
    rw [reg_of_file, State.reg_setFlag]
    exact flagByte_eq c

theorem of_setResultFlag {x : RegIdx} (b : Byte) (c : Bool) (hx : i.isDest x = true) (hi : i.writesFlag = true) :
    RegsWritable i s ((s.setReg x b).setFlag c).v where
  dest r h := by
    rw [reg_of_file, State.reg_setFlag, State.reg_setReg] at h
    split_ifs at h
    · exact .inr ⟨‹_›, hi⟩
    · subst_vars; exact .inl hx
    · exact absurd rfl h
  flag _ := by
    rw [reg_of_file, State.reg_setFlag]
    exact flagByte_eq c

/-- A transfer into the first registers, up to `x`. -/
theorem of_transfer {x : RegIdx} {u : State} {b : RegIdx → Byte}
    (hu : ∀ r, u.reg r = if r.toNat < x.toNat + 1 then b r else s.reg r)
    (hx : ∀ r : RegIdx, r.toNat ≤ x.toNat → i.isDest r = true) (hi : i.writesFlag = false) : RegsWritable i s u.v where
  dest r h := by
    rw [reg_of_file, hu] at h
    split at h
    · exact .inl (hx r (by omega))
    · exact absurd rfl h
  flag h := by simp [hi] at h

end RegsWritable

/-- Every instruction answers a next state, with its effect. -/
theorem exec_effect (i : Instr) (s : State) : ∃ t, exec i s = .next t ∧ Effect s i t := by
  cases i with
  | scd n => exact ⟨_, exec_scd s n, .picture s.v _ rfl (.of_unchanged rfl) (fun _ => Frame.scrollDown_confined _ _ _) (by simp)⟩
  | cls => exact ⟨_, exec_cls s, .picture s.v _ rfl (.of_unchanged rfl) (fun _ => Frame.clear_confined _) (by simp)⟩
  | ret =>
    refine ⟨_, exec_ret s, ?_⟩
    split
    · exact .retEmpty ‹_›
    · exact .retPop ‹_›
  | scr => exact ⟨_, exec_scr s, .picture s.v _ rfl (.of_unchanged rfl) (fun _ => Frame.scrollRight_confined _ _ _ _) (by simp)⟩
  | scl => exact ⟨_, exec_scl s, .picture s.v _ rfl (.of_unchanged rfl) (fun _ => Frame.scrollLeft_confined _ _ _ _) (by simp)⟩
  | low => exact ⟨_, exec_low s, .mode false (.inl rfl)⟩
  | high => exact ⟨_, exec_high s, .mode true (.inr rfl)⟩
  | jp nnn => exact ⟨_, exec_jp s nnn, .compute s.v s.i _ ⟨rfl, rfl⟩ (.of_unchanged rfl)⟩
  | call nnn =>
    refine ⟨_, exec_call s nnn, ?_⟩
    split
    · exact .callPush nnn ‹_›
    · exact .callFull nnn ‹_›
  | seImm x kk => exact ⟨_, exec_seImm s x kk, .compute s.v s.i _ ⟨rfl, rfl⟩ (.of_unchanged rfl)⟩
  | sneImm x kk => exact ⟨_, exec_sneImm s x kk, .compute s.v s.i _ ⟨rfl, rfl⟩ (.of_unchanged rfl)⟩
  | seReg x y => exact ⟨_, exec_seReg s x y, .compute s.v s.i _ ⟨rfl, rfl⟩ (.of_unchanged rfl)⟩
  | ldImm x kk => exact ⟨_, exec_ldImm s x kk, .compute _ s.i _ ⟨rfl, rfl⟩ (.of_setReg _ (beq_self_eq_true x) rfl)⟩
  | addImm x kk => exact ⟨_, exec_addImm s x kk, .compute _ s.i _ ⟨rfl, rfl⟩ (.of_setReg _ (beq_self_eq_true x) rfl)⟩
  | ldReg x y => exact ⟨_, exec_ldReg s x y, .compute _ s.i _ ⟨rfl, rfl⟩ (.of_setReg _ (beq_self_eq_true x) rfl)⟩
  | orReg x y => exact ⟨_, exec_orReg s x y, .compute _ s.i _ ⟨rfl, rfl⟩ (.of_setReg _ (beq_self_eq_true x) rfl)⟩
  | andReg x y => exact ⟨_, exec_andReg s x y, .compute _ s.i _ ⟨rfl, rfl⟩ (.of_setReg _ (beq_self_eq_true x) rfl)⟩
  | xorReg x y => exact ⟨_, exec_xorReg s x y, .compute _ s.i _ ⟨rfl, rfl⟩ (.of_setReg _ (beq_self_eq_true x) rfl)⟩
  | addReg x y => exact ⟨_, exec_addReg s x y, .compute _ s.i _ ⟨rfl, rfl⟩ (.of_setResultFlag _ _ (beq_self_eq_true x) rfl)⟩
  | sub x y => exact ⟨_, exec_sub s x y, .compute _ s.i _ ⟨rfl, rfl⟩ (.of_setResultFlag _ _ (beq_self_eq_true x) rfl)⟩
  | shr x y => exact ⟨_, exec_shr s x y, .compute _ s.i _ ⟨rfl, rfl⟩ (.of_setResultFlag _ _ (beq_self_eq_true x) rfl)⟩
  | subn x y => exact ⟨_, exec_subn s x y, .compute _ s.i _ ⟨rfl, rfl⟩ (.of_setResultFlag _ _ (beq_self_eq_true x) rfl)⟩
  | shl x y => exact ⟨_, exec_shl s x y, .compute _ s.i _ ⟨rfl, rfl⟩ (.of_setResultFlag _ _ (beq_self_eq_true x) rfl)⟩
  | sneReg x y => exact ⟨_, exec_sneReg s x y, .compute s.v s.i _ ⟨rfl, rfl⟩ (.of_unchanged rfl)⟩
  | ldI nnn => exact ⟨_, exec_ldI s nnn, .compute s.v _ _ ⟨rfl, rfl⟩ (.of_unchanged rfl)⟩
  | jpV0 nnn => exact ⟨_, exec_jpV0 s nnn, .compute s.v s.i _ ⟨rfl, rfl⟩ (.of_unchanged rfl)⟩
  | rnd x kk => exact ⟨_, exec_rnd s x kk, .compute _ s.i _ ⟨rfl, rfl⟩ (.of_setReg _ (beq_self_eq_true x) rfl)⟩
  | drw x y n =>
    exact ⟨_, exec_drw s x y n, .picture _ _ rfl (.of_setFlag _ rfl) (Frame.draw_confined _ _ _ _) (by simp)⟩
  | skp x => exact ⟨_, exec_skp s x, .compute s.v s.i _ ⟨rfl, rfl⟩ (.of_unchanged rfl)⟩
  | sknp x => exact ⟨_, exec_sknp s x, .compute s.v s.i _ ⟨rfl, rfl⟩ (.of_unchanged rfl)⟩
  | ldVxDT x => exact ⟨_, exec_ldVxDT s x, .compute _ s.i _ ⟨rfl, rfl⟩ (.of_setReg _ (beq_self_eq_true x) rfl)⟩
  | ldVxK x =>
    refine ⟨_, exec_ldVxK s x, ?_⟩
    cases s.firstKey with
    | none => exact .compute s.v s.i s.pc ⟨rfl, rfl⟩ (.of_unchanged rfl)
    | some k => exact .compute _ s.i _ ⟨rfl, rfl⟩ (.of_setReg _ (beq_self_eq_true x) rfl)
  | ldDTVx x => exact ⟨_, exec_ldDTVx s x, .setDT x⟩
  | ldSTVx x => exact ⟨_, exec_ldSTVx s x, .setST x⟩
  | addI x => exact ⟨_, exec_addI s x, .compute _ _ _ ⟨rfl, rfl⟩ (.of_setFlag _ rfl)⟩
  | ldF x => exact ⟨_, exec_ldF s x, .compute s.v _ _ ⟨rfl, rfl⟩ (.of_unchanged rfl)⟩
  | ldHF x => exact ⟨_, exec_ldHF s x, .compute s.v _ _ ⟨rfl, rfl⟩ (.of_unchanged rfl)⟩
  | ldB x => exact ⟨_, exec_ldB s x, .store _ s.i ⟨x, .inl rfl⟩ (State.bcdMem_wf s _)⟩
  | ldMemVx x => exact ⟨_, exec_ldMemVx s x, .store _ _ ⟨x, .inr rfl⟩ (State.storeRegs_wf s _ _)⟩
  | ldVxMem x =>
    exact ⟨_, exec_ldVxMem s x, .compute _ _ _ ⟨rfl, rfl⟩
      (.of_transfer (fun r => State.reg_loadRegs s _ _ r (by omega)) (by simp [Instr.isDest]) rfl)⟩
  | ldRVx x => exact ⟨_, exec_ldRVx s x, .storeAux x _⟩
  | ldVxR x =>
    exact ⟨_, exec_ldVxR s x, .compute _ s.i _ ⟨rfl, rfl⟩
      (.of_transfer (fun r => State.reg_loadAux s _ r (by omega)) (by simp [Instr.isDest]) rfl)⟩

theorem effect_of_exec {i : Instr} {s t : State} (h : exec i s = .next t) : Effect s i t := by
  obtain ⟨u, hu, effect⟩ := exec_effect i s
  cases hu.symm.trans h
  exact effect

/-! ## What no instruction changes, and who writes what -/

/-- Settles O13: only the effects on the picture and the mode touch the display, and both set DIRTY. -/
theorem onlyDisplayInstructionsWriteTheDisplay : Obligations.OnlyDisplayInstructionsWriteTheDisplay := by
  intro i s t h
  cases effect_of_exec h with
  | compute v a p quiet => simp [quiet]
  | picture v f draws => simp [draws]
  | mode e toggle => rcases toggle with rfl | rfl <;> simp [Instr.drawsOrScrolls]
  | store m a stores => obtain ⟨x, rfl | rfl⟩ := stores <;> simp [Instr.drawsOrScrolls]
  | callPush | callFull | retPop | retEmpty | storeAux | setDT | setST => simp [Instr.drawsOrScrolls]

/-- Settles O14: only LOW and HIGH set the mode, and both clear the buffer, whatever the mode was (R132, R136, R137). -/
theorem modeChangesOnlyByLowAndHighAndClears : Obligations.ModeChangesOnlyByLowAndHighAndClears := by
  intro i s t h
  cases effect_of_exec h with
  | compute v a p quiet =>
    refine ⟨fun changed => absurd rfl changed, ?_⟩
    rintro (rfl | rfl) <;> simp [Instr.drawsOrScrolls] at quiet
  | picture v f draws regs confined same_mode => exact ⟨fun changed => absurd rfl changed, fun toggle => by tauto⟩
  | mode e toggle => exact ⟨fun _ => toggle, fun _ => Frame.cell_clear⟩
  | store m a stores =>
    refine ⟨fun changed => absurd rfl changed, ?_⟩
    obtain ⟨x, rfl | rfl⟩ := stores <;> simp
  | callPush | callFull | retPop | retEmpty | storeAux | setDT | setST => simp

/-- Settles O15: the two effects that write registers name theirs; every other effect leaves the file, of instructions that do
not write the flag. -/
theorem registersChangeOnlyAsDestinationOrFlag : Obligations.RegistersChangeOnlyAsDestinationOrFlag := by
  intro i s t h
  have unchanged (hv : t.v = s.v) (hi : i.writesFlag = false) :
      (∀ r, t.reg r ≠ s.reg r → i.isDest r = true ∨ (r = 15 ∧ i.writesFlag = true)) ∧
      (i.writesFlag = true → t.reg 15 = 0 ∨ t.reg 15 = 1) :=
    ⟨fun r changed => absurd (State.reg_congr hv r) changed, fun flag => by simp [hi] at flag⟩
  cases effect_of_exec h with
  | compute v a p quiet regs => exact ⟨regs.dest, regs.flag⟩
  | picture v f draws regs => exact ⟨regs.dest, regs.flag⟩
  | mode e toggle => exact unchanged rfl (by rcases toggle with rfl | rfl <;> rfl)
  | store m a stores => exact unchanged rfl (by obtain ⟨x, rfl | rfl⟩ := stores <;> rfl)
  | callPush | callFull | retPop | retEmpty | storeAux | setDT | setST => exact unchanged rfl rfl

/-- Settles O16: each of the five has one effect, or the two of the stack pointer, that writes it. -/
theorem stackAuxAndTimersHaveOneWriterEach : Obligations.StackAuxAndTimersHaveOneWriterEach := by
  intro i s t h
  cases effect_of_exec h <;> simp

/-- Settles O17: no effect mentions the fields of the outside. -/
theorem instructionsLeaveTheOutsideAlone : Obligations.InstructionsLeaveTheOutsideAlone := by
  intro i s t h
  cases effect_of_exec h <;> simp

/-- Settles O18: only one effect touches memory, that of the two stores. -/
theorem onlyTheTwoStoresWriteMemory : Obligations.OnlyTheTwoStoresWriteMemory := by
  intro i s t h others
  cases effect_of_exec h with
  | store m a stores =>
    obtain ⟨x, rfl | rfl⟩ := stores
    · exact absurd rfl (others x).1
    · exact absurd rfl (others x).2
  | compute | picture | mode | callPush | callFull | retPop | retEmpty | storeAux | setDT | setST =>
    exact fun a => State.readByte_congr rfl rfl a

end Sys2Proof.Machine
end

section
/-! Every step of every agent (spec/00_scope.md R2): that there is a next state, and what all steps keep. -/

namespace Sys2Proof.Machine

/-- The CPU's step answers a next state for every word (R56). -/
theorem cpuStep_next (rnd : Byte) (s : State) : ∃ t, cpuStep rnd s = .next t := by
  unfold cpuStep
  split
  · obtain ⟨t, ht, -⟩ := exec_effect _ (s.beginStep rnd)
    exact ⟨t, ht⟩
  · exact ⟨_, rfl⟩

/-- Settles O9: every event's step is a next state outright, but for the CPU's, which answers one for every word. -/
theorem everyStepAnswersANextState : Obligations.EveryStepAnswersANextState := by
  intro s
  unfold step
  split
  · exact cpuStep_next _ _
  · exact cpuStep_next _ _
  all_goals exact ⟨_, rfl⟩

/-- `TickTimers(now)` as one update: each timer and its timestamp move if the timer's tick is due (R181). -/
theorem State.tickTimers_eq (now : Nat) (s : State) : s.tickTimers now = { s with
    dt := if tickDue s.cfg s.lastDT now then decay s.dt else s.dt
    lastDT := if tickDue s.cfg s.lastDT now then now else s.lastDT
    st := if tickDue s.cfg s.lastST now then decay s.st else s.st
    lastST := if tickDue s.cfg s.lastST now then now else s.lastST } := by
  simp only [State.tickTimers, State.timedTickDT, State.timedTickST]
  split <;> split <;> simp_all [State.tickDT, State.tickST]

/-- `Load` changes memory and the load port alone (R189). -/
theorem State.loadEvent_eq (bytes : List Byte) (address : Word) (s : State) : s.loadEvent bytes address = { s with
    mem := (s.loadEvent bytes address).mem, loadResult := (s.loadEvent bytes address).loadResult } := by
  unfold State.loadEvent State.load
  split <;> rfl

/-- Settles O12: instructions and the fetch do not write the configuration, no event of another agent does, and Reset takes it
over (R6, R200). -/
theorem noStepChangesTheConfiguration : Obligations.NoStepChangesTheConfiguration := by
  have cpu {rnd : Byte} {s t : State} (h : cpuStep rnd s = .next t) : t.cfg = s.cfg := by
    obtain ⟨i, -, h⟩ | ⟨why, -, rfl⟩ := cpuStep_cases h
    · obtain ⟨-, -, -, -, cfg, -⟩ := instructionsLeaveTheOutsideAlone i _ t h
      rw [cfg, State.beginStep_eq]
    · rw [State.beginStep_eq]; rfl
  intro s t h
  obtain ⟨-, h⟩ | ⟨rnd, es, -, h⟩ | ⟨es, -, rfl⟩ | ⟨es, -, rfl⟩ | ⟨now, es, -, rfl⟩ | ⟨k, p, es, -, rfl⟩ | ⟨es, -, rfl⟩ |
    ⟨bs, a, es, -, rfl⟩ | ⟨time, es, -, rfl⟩ := step_cases h
  · exact (cpu h).trans rfl
  · exact (cpu h).trans rfl
  · rfl
  · rfl
  · rw [State.tickTimers_eq]
  · rfl
  · rfl
  · rw [State.loadEvent_eq]
  · rfl

/-! ## The invariant -/

/-- Every effect keeps the invariant: stores keep the canonical form, and a picture is confined to the grid of its mode. -/
theorem Effect.inv {i : Instr} {s t : State} (h : Effect s i t) (inv : s.Inv) : t.Inv := by
  cases h with
  | picture v f draws regs confined => exact ⟨inv.memory, confined inv.display⟩
  | mode e => exact ⟨inv.memory, Frame.clear_confined e⟩
  | store m a stores wf => exact ⟨wf inv.memory, inv.display⟩
  | compute | callPush | callFull | retPop | retEmpty | storeAux | setDT | setST => exact inv.congr rfl rfl rfl rfl

theorem State.resetWith_inv (q : Config) (time : Nat) : (State.resetWith q time).Inv where
  memory := Memory.wf_nil q
  display := Frame.clear_confined false

theorem State.beginStep_inv {s : State} (rnd : Byte) (inv : s.Inv) : (s.beginStep rnd).Inv := by
  rw [State.beginStep_eq]
  exact inv.congr rfl rfl rfl rfl

theorem cpuStep_inv {rnd : Byte} {s t : State} (h : cpuStep rnd s = .next t) (inv : s.Inv) : t.Inv := by
  have begun := State.beginStep_inv rnd inv
  obtain ⟨i, -, h⟩ | ⟨why, -, rfl⟩ := cpuStep_cases h
  · exact (effect_of_exec h).inv begun
  · exact begun.congr rfl rfl rfl rfl

/-- A load that fits keeps the canonical form of memory, and one that does not fit changes nothing (R189). -/
theorem State.loadEvent_inv {s : State} (bytes : List Byte) (address : Word) (inv : s.Inv) :
    (s.loadEvent bytes address).Inv := by
  unfold State.loadEvent State.load
  split
  · exact inv.congr rfl rfl rfl rfl
  · exact ⟨Memory.wf_writeAll _ _ _ _ (by omega) inv.memory, inv.display⟩

/-- Settles O8: an instruction's effect keeps the invariant, as does the fetch before it; of the other events only Load writes
memory and only Reset the picture or the mode. -/
theorem everyStepKeepsTheInvariant : Obligations.EveryStepKeepsTheInvariant := by
  intro s t inv h
  obtain ⟨-, h⟩ | ⟨rnd, es, -, h⟩ | ⟨es, -, rfl⟩ | ⟨es, -, rfl⟩ | ⟨now, es, -, rfl⟩ | ⟨k, p, es, -, rfl⟩ | ⟨es, -, rfl⟩ |
    ⟨bs, a, es, -, rfl⟩ | ⟨time, es, -, rfl⟩ := step_cases h
  · exact cpuStep_inv h (inv.congr rfl rfl rfl rfl)
  · exact cpuStep_inv h (inv.congr rfl rfl rfl rfl)
  · exact inv.congr rfl rfl rfl rfl
  · exact inv.congr rfl rfl rfl rfl
  · rw [State.tickTimers_eq]
    exact inv.congr rfl rfl rfl rfl
  · exact inv.congr rfl rfl rfl rfl
  · exact inv.congr rfl rfl rfl rfl
  · exact State.loadEvent_inv bs a (inv.congr rfl rfl rfl rfl)
  · exact (State.resetWith_inv s.cfg time).congr rfl rfl rfl rfl

/-- Settles O7: nothing is listed in memory, and the buffer is clear. -/
theorem resetMeetsTheInvariant : Obligations.ResetMeetsTheInvariant :=
  State.resetWith_inv defaultConfig 0

/-! ## Timers -/

/-- The decrement of R180, as a number: subtraction that stops at 0. -/
theorem decay_toNat (b : Byte) : (decay b).toNat = b.toNat - 1 := by
  unfold decay
  split
  · simp_all
  · have : b.toNat ≠ 0 := by simpa [← BitVec.toNat_inj] using ‹¬ b = 0›
    exact BitVec.toNat_sub_of_le (by bv_omega)

theorem decay_le (b : Byte) : (decay b).toNat ≤ b.toNat := by
  rw [decay_toNat]
  exact Nat.sub_le _ _

/-- In a step of the CPU only the load of a timer changes it. -/
theorem cpuStep_timers {rnd : Byte} {s t : State} (h : cpuStep rnd s = .next t) :
    (t.dt ≠ s.dt → ∃ x, decodeWord s.fetchWord = .instr (.ldDTVx x)) ∧
    (t.st ≠ s.st → ∃ x, decodeWord s.fetchWord = .instr (.ldSTVx x)) := by
  obtain ⟨i, hi, h⟩ | ⟨why, -, rfl⟩ := cpuStep_cases h
  · obtain ⟨-, -, -, dt, st⟩ := stackAuxAndTimersHaveOneWriterEach i _ t h
    rw [State.beginStep_eq] at dt st
    rw [hi]
    constructor
    · intro changed
      obtain ⟨x, rfl⟩ := dt changed
      exact ⟨x, rfl⟩
    · intro changed
      obtain ⟨x, rfl⟩ := st changed
      exact ⟨x, rfl⟩
  · rw [State.beginStep_eq]
    exact ⟨fun changed => absurd rfl changed, fun changed => absurd rfl changed⟩

/-- Whether the next step is the CPU's. -/
def State.cpuTurn (s : State) : Prop := s.pending = [] ∨ ∃ rnd es, s.pending = .step rnd :: es

/-- Every event of another agent leaves a timer or lowers it: a tick does not raise it and Reset clears it (R17, R180). -/
theorem step_timers {s t : State} (h : step s = .next t) :
    (s.cpuTurn ∧ ∃ rnd n es, cpuStep rnd { s with draws := n, pending := es } = .next t) ∨
    (t.dt.toNat ≤ s.dt.toNat ∧ t.st.toNat ≤ s.st.toNat) := by
  obtain ⟨hp, h⟩ | ⟨rnd, es, hp, h⟩ | ⟨es, -, rfl⟩ | ⟨es, -, rfl⟩ | ⟨now, es, -, rfl⟩ | ⟨k, p, es, -, rfl⟩ | ⟨es, -, rfl⟩ |
    ⟨bs, a, es, -, rfl⟩ | ⟨time, es, -, rfl⟩ := step_cases h
  · exact .inl ⟨.inl hp, _, s.draws + 1, s.pending, h⟩
  · exact .inl ⟨.inr ⟨rnd, es, hp⟩, rnd, s.draws + 1, es, h⟩
  · exact .inr ⟨decay_le s.dt, le_refl _⟩
  · exact .inr ⟨le_refl _, decay_le s.st⟩
  · rw [State.tickTimers_eq]
    simp only [apply_ite BitVec.toNat]
    have dt := decay_le s.dt
    have st := decay_le s.st
    exact .inr ⟨by split <;> omega, by split <;> omega⟩
  · exact .inr ⟨le_refl _, le_refl _⟩
  · exact .inr ⟨le_refl _, le_refl _⟩
  · rw [State.loadEvent_eq]
    exact .inr ⟨le_refl _, le_refl _⟩
  · exact .inr ⟨Nat.zero_le _, Nat.zero_le _⟩

/-- Settles O19: a timer that rose did so in a step of the CPU, where only its load changes it. -/
theorem timersRiseOnlyByTheirLoads : Obligations.TimersRiseOnlyByTheirLoads := by
  intro s t h
  obtain ⟨turn, rnd, n, es, h⟩ | ⟨dt, st⟩ := step_timers h
  · obtain ⟨dt, st⟩ := cpuStep_timers h
    exact ⟨fun rose => ⟨turn, dt fun same => rose.ne (congrArg _ same.symm)⟩,
      fun rose => ⟨turn, st fun same => rose.ne (congrArg _ same.symm)⟩⟩
  · exact ⟨fun rose => absurd dt rose.not_ge, fun rose => absurd st rose.not_ge⟩

/-! ## Diagnostics -/

/-- A DIAG with one bit raised, bit by bit. -/
theorem getLsbD_or_twoPow (d : BitVec 4) {j : Nat} (hj : j < 4) (k : Nat) :
    (d ||| BitVec.twoPow 4 j).getLsbD k = true ↔ d.getLsbD k = true ∨ k = j := by
  simp only [BitVec.getLsbD_or, BitVec.getLsbD_twoPow, hj, decide_true, Bool.true_and, Bool.or_eq_true, decide_eq_true_eq,
    eq_comm (a := j)]

theorem getLsbD_diagAfter (d : BitVec 4) (base n k : Nat) : (diagAfter d base n).getLsbD k = true ↔
    d.getLsbD k = true ∨ (k = 3 ∧ 0 < n ∧ 0xFFF < base + (n - 1)) := by
  unfold diagAfter
  split
  · rw [show (0b1000 : BitVec 4) = BitVec.twoPow 4 3 from rfl, getLsbD_or_twoPow d (by decide)]
    tauto
  · tauto

/-- The diagnostics an instruction raises, each with its cause (R70, R73, R171). -/
theorem Effect.getLsbD_diag {i : Instr} {s t : State} (h : Effect s i t) (k : Nat) : t.diag.getLsbD k = true ↔
    s.diag.getLsbD k = true ∨ (k = 1 ∧ i = .ret ∧ s.sp.val = 0) ∨ (k = 2 ∧ (∃ nnn, i = .call nnn) ∧ s.sp.val = 16) ∨
      (k = 3 ∧ 0 < s.accesses i ∧ 0xFFF < s.i.toNat + (s.accesses i - 1)) := by
  have off_stack (hi : i.usesStack = false) : i ≠ .ret ∧ ∀ nnn, i ≠ .call nnn := by
    constructor <;> (intros; rintro rfl; cases hi)
  have sp_le := s.sp.isLt
  cases h with
  | compute v a p quiet =>
    obtain ⟨ret, call⟩ := off_stack quiet.2
    rw [getLsbD_diagAfter]
    simp [ret, call]
  | picture v f draws =>
    obtain ⟨ret, call⟩ := off_stack (Instr.usesStack_of_draws draws)
    rw [getLsbD_diagAfter]
    simp [ret, call]
  | store m a stores =>
    obtain ⟨x, rfl | rfl⟩ := stores <;> rw [getLsbD_diagAfter] <;> simp
  | mode e toggle => rcases toggle with rfl | rfl <;> simp [State.accesses]
  | callPush nnn => simp [State.accesses]; omega
  | callFull nnn =>
    rw [show (0b0100 : BitVec 4) = BitVec.twoPow 4 2 from rfl, getLsbD_or_twoPow _ (by decide)]
    simp [State.accesses, show s.sp.val = 16 by omega]
  | retPop => simp [State.accesses, *]
  | retEmpty =>
    rw [show (0b0010 : BitVec 4) = BitVec.twoPow 4 1 from rfl, getLsbD_or_twoPow _ (by decide)]
    simp [State.accesses, *]
  | storeAux | setDT | setST => simp [State.accesses]

/-- Settles O11: the fetch leaves in DIAG its own overflow only, and to that the instruction or the unknown word adds the
diagnostics of its causes. -/
theorem diagnosticsAreRaisedExactlyForTheirCauses : Obligations.DiagnosticsAreRaisedExactlyForTheirCauses := by
  intro rnd s t h
  have fetch (k : Nat) : (s.beginStep rnd).diag.getLsbD k = true ↔ k = 3 ∧ 0xFFF < s.pc.toNat + 1 := by
    rw [State.beginStep_eq]
    show (diagAfter 0 s.pc.toNat 2).getLsbD k = true ↔ _
    rw [getLsbD_diagAfter]
    simp
  obtain ⟨i, hi, h⟩ | ⟨why, hw, rfl⟩ := cpuStep_cases h
  · have bits := (effect_of_exec h).getLsbD_diag
    simp only [fetch] at bits
    rw [State.beginStep_eq] at bits
    have same_accesses : ({ s with diag := diagAfter 0 s.pc.toNat 2, lastWord := s.fetchWord, rnd := rnd } : State).accesses i =
      s.accesses i := rfl
    simp only [bits, hi, same_accesses]
    simp
  · have bits (k : Nat) : (s.beginStep rnd).skipUnknown.diag.getLsbD k = true ↔ (k = 3 ∧ 0xFFF < s.pc.toNat + 1) ∨ k = 0 := by
      have raised : (s.beginStep rnd).skipUnknown.diag = (s.beginStep rnd).diag ||| 0b0001 := rfl
      rw [raised, show (0b0001 : BitVec 4) = BitVec.twoPow 4 0 from rfl, getLsbD_or_twoPow _ (by decide), fetch]
    simp only [bits, hw]
    simp

end Sys2Proof.Machine
end

section
/-! What an instruction depends on (spec/10_state.md sections 4 and 5): not on what `State.observable` hides, and only RND on the
`rnd` port. -/

namespace Sys2Proof.Machine

/-! Register transfers depend on the register files, memory and the configuration alone. -/

theorem State.storeRegs_mem_congr {s u : State} (hv : u.v = s.v) (hc : u.cfg = s.cfg) (hm : u.mem = s.mem) (base n : Nat) :
    (u.storeRegs base n).mem = (s.storeRegs base n).mem := by
  have cfg (w : State) (k : Nat) : (w.storeRegs base k).cfg = w.cfg := by rw [State.storeRegs_eq]
  induction n with
  | zero => exact hm
  | succ n ih => simp only [State.storeRegs, State.memWrite_mem, cfg, ih, hc, State.reg_congr hv]

theorem State.loadRegs_v_congr {s u : State} (hv : u.v = s.v) (hc : u.cfg = s.cfg) (hm : u.mem = s.mem) (base n : Nat) :
    (u.loadRegs base n).v = (s.loadRegs base n).v := by
  induction n with
  | zero => exact hv
  | succ n ih => simp only [State.loadRegs, State.setReg_v, State.noteAddr_v, ih, State.readByte_congr hc hm]

theorem State.storeAux_aux_congr {s u : State} (hv : u.v = s.v) (ha : u.aux = s.aux) (n : Nat) :
    (u.storeAux n).aux = (s.storeAux n).aux := by
  induction n with
  | zero => exact ha
  | succ n ih => simp only [State.storeAux, State.setAux_aux, ih, State.reg_congr hv]

theorem State.loadAux_v_congr {s u : State} (hv : u.v = s.v) (ha : u.aux = s.aux) (n : Nat) :
    (u.loadAux n).v = (s.loadAux n).v := by
  have same (r : RegIdx) : u.auxReg r = s.auxReg r := by simp only [State.auxReg, ha]
  induction n with
  | zero => exact hv
  | succ n ih => simp only [State.loadAux, State.setReg_v, ih, same]

/-- An instruction does the same to what a program can observe, whatever the hidden fields hold. The next state of most
instructions is visibly made of fields that `State.observable` keeps. -/
theorem exec_observable (i : Instr) (s : State) :
    ∃ t u, exec i s = .next t ∧ exec i s.observable = .next u ∧ t.observable = u.observable := by
  cases i with
  | ret =>
    refine ⟨_, _, exec_ret s, exec_ret _, ?_⟩
    change (if s.sp.val = 0 then _ else _ : State).observable = (if s.sp.val = 0 then _ else _ : State).observable
    split <;> rfl
  | call nnn =>
    refine ⟨_, _, exec_call s nnn, exec_call _ nnn, ?_⟩
    by_cases h : s.sp.val < 16
    · rw [dif_pos h, dif_pos (show s.observable.sp.val < 16 from h)]; rfl
    · rw [dif_neg h, dif_neg (show ¬ s.observable.sp.val < 16 from h)]; rfl
  | ldVxK x =>
    refine ⟨_, _, exec_ldVxK s x, exec_ldVxK _ x, ?_⟩
    rw [show s.observable.firstKey = s.firstKey from rfl]
    cases s.firstKey <;> rfl
  | ldMemVx x =>
    refine ⟨_, _, exec_ldMemVx s x, exec_ldMemVx _ x, ?_⟩
    rw [State.storeRegs_mem_congr (s := s) (u := s.observable) rfl rfl rfl]
    rfl
  | ldVxMem x =>
    refine ⟨_, _, exec_ldVxMem s x, exec_ldVxMem _ x, ?_⟩
    rw [State.loadRegs_v_congr (s := s) (u := s.observable) rfl rfl rfl]
    rfl
  | ldRVx x =>
    refine ⟨_, _, exec_ldRVx s x, exec_ldRVx _ x, ?_⟩
    rw [State.storeAux_aux_congr (s := s) (u := s.observable) rfl rfl]
    rfl
  | ldVxR x =>
    refine ⟨_, _, exec_ldVxR s x, exec_ldVxR _ x, ?_⟩
    rw [State.loadAux_v_congr (s := s) (u := s.observable) rfl rfl]
    rfl
  | drw x y n => exact ⟨_, _, exec_drw s x y n, exec_drw _ x y n, rfl⟩
  | ldB x => exact ⟨_, _, exec_ldB s x, exec_ldB _ x, rfl⟩
  | _ => exact ⟨_, _, rfl, rfl, rfl⟩

theorem exec_observable_congr (i : Instr) {s s' : State} (h : s.observable = s'.observable) :
    ∃ t t', exec i s = .next t ∧ exec i s' = .next t' ∧ t.observable = t'.observable := by
  obtain ⟨t, u, ht, hu, htu⟩ := exec_observable i s
  obtain ⟨t', u', ht', hu', htu'⟩ := exec_observable i s'
  rw [h] at hu
  cases hu.symm.trans hu'
  exact ⟨t, t', ht, ht', htu.trans htu'.symm⟩

/-- What a program can observe after the fetch is what it could before it, but for the `rnd` port. -/
theorem State.beginStep_observable (rnd : Byte) (s : State) :
    (s.beginStep rnd).observable = { s.observable with rnd := rnd } := by
  rw [State.beginStep_eq]
  rfl

/-- Settles O20: both states fetch the same word, and from states that look the same to a program an instruction, or an unknown
word, leads to states that do. -/
theorem programsCannotObserveDirtyDiagOrSound : Obligations.ProgramsCannotObserveDirtyDiagOrSound := by
  intro rnd s s' h
  have word : s.fetchWord = s'.fetchWord :=
    (show s.fetchWord = s.observable.fetchWord from rfl).trans (h ▸ rfl)
  have begun : (s.beginStep rnd).observable = (s'.beginStep rnd).observable := by
    rw [State.beginStep_observable, State.beginStep_observable, h]
  simp only [cpuStep, word]
  cases decodeWord s'.fetchWord with
  | instr i => exact exec_observable_congr i begun
  | unknown why =>
    have skip (u : State) : u.skipUnknown.observable = u.observable.advance := rfl
    exact ⟨_, _, rfl, rfl, by rw [skip, skip, begun]⟩

/-- An instruction other than RND does the same whatever the `rnd` port holds, and leaves the port. -/
theorem exec_rnd_port (i : Instr) (hi : ∀ x kk, i ≠ .rnd x kk) (s : State) (r : Byte) :
    ∃ t u, exec i s = .next t ∧ exec i { s with rnd := r } = .next u ∧ u = { t with rnd := r } := by
  cases i with
  | rnd x kk => exact absurd rfl (hi x kk)
  | ret =>
    refine ⟨_, _, exec_ret s, exec_ret _, ?_⟩
    change (if s.sp.val = 0 then _ else _ : State) = { (if s.sp.val = 0 then _ else _ : State) with rnd := r }
    split <;> rfl
  | call nnn =>
    refine ⟨_, _, exec_call s nnn, exec_call _ nnn, ?_⟩
    by_cases h : s.sp.val < 16
    · rw [dif_pos h, dif_pos h]
    · rw [dif_neg h, dif_neg h]
  | ldVxK x =>
    refine ⟨_, _, exec_ldVxK s x, exec_ldVxK _ x, ?_⟩
    rw [show ({ s with rnd := r } : State).firstKey = s.firstKey from rfl]
    cases s.firstKey <;> rfl
  | ldMemVx x =>
    refine ⟨_, _, exec_ldMemVx s x, exec_ldMemVx _ x, ?_⟩
    rw [State.storeRegs_mem_congr (s := s) (u := { s with rnd := r }) rfl rfl rfl]
    rfl
  | ldVxMem x =>
    refine ⟨_, _, exec_ldVxMem s x, exec_ldVxMem _ x, ?_⟩
    rw [State.loadRegs_v_congr (s := s) (u := { s with rnd := r }) rfl rfl rfl]
    rfl
  | ldRVx x =>
    refine ⟨_, _, exec_ldRVx s x, exec_ldRVx _ x, ?_⟩
    rw [State.storeAux_aux_congr (s := s) (u := { s with rnd := r }) rfl rfl]
  | ldVxR x =>
    refine ⟨_, _, exec_ldVxR s x, exec_ldVxR _ x, ?_⟩
    rw [State.loadAux_v_congr (s := s) (u := { s with rnd := r }) rfl rfl]
  | drw x y n => exact ⟨_, _, exec_drw s x y n, exec_drw _ x y n, rfl⟩
  | ldB x => exact ⟨_, _, exec_ldB s x, exec_ldB _ x, rfl⟩
  | _ => exact ⟨_, _, rfl, rfl, rfl⟩

/-- Settles O21: the two steps start from states that differ in the port alone, and only RND reads it (R102). -/
theorem onlyRndReadsTheRandomByte : Obligations.OnlyRndReadsTheRandomByte := by
  intro r r' s others
  have begun : s.beginStep r' = { s.beginStep r with rnd := r' } := by
    rw [State.beginStep_eq, State.beginStep_eq]
  unfold cpuStep
  rw [begun]
  cases hd : decodeWord s.fetchWord with
  | instr i =>
    have hi : ∀ x kk, i ≠ .rnd x kk := fun x kk h => others x kk (by rw [hd, h])
    obtain ⟨t, u, ht, hu, rfl⟩ := exec_rnd_port i hi (s.beginStep r) r'
    exact ⟨t, _, ht, hu, rfl⟩
  | unknown why => exact ⟨_, _, rfl, rfl, rfl⟩

theorem cpuStep_of_instr {rnd : Byte} {s : State} {i : Instr} (h : decodeWord s.fetchWord = .instr i) :
    cpuStep rnd s = exec i (s.beginStep rnd) := by
  simp only [cpuStep, h]

theorem cpuStep_of_unknown {rnd : Byte} {s : State} {why : Unknown} (h : decodeWord s.fetchWord = .unknown why) :
    cpuStep rnd s = .next (s.beginStep rnd).skipUnknown := by
  simp only [cpuStep, h]

/-- The fetch reads PC and PC + 1, of which the second is the higher (R35). -/
theorem diagAfter_fetch (a : Nat) : diagAfter 0 a 2 = if 0xFFF < a + 1 then 0b1000 else 0 := by
  simp [diagAfter]

/-- Settles O10: without an event, or with a CPU step first, `step` is `cpuStep`, which runs the decoded instruction after the
fetch (R35, R56, R57). -/
theorem stepRunsTheDecodedInstruction : Obligations.StepRunsTheDecodedInstruction := by
  refine ⟨fun s h => by rw [step, h], fun s rnd es h => by rw [step, h], ?_⟩
  intro s rnd w b
  have begun : s.beginStep rnd = b := by rw [State.beginStep_eq, diagAfter_fetch]; rfl
  rw [← begun]
  refine ⟨fun i h => cpuStep_of_instr h, fun why h => ?_⟩
  rw [cpuStep_of_unknown h, State.beginStep_eq]
  rfl

/-- Settles O36: the queued byte is on the port when the CPU executes RND (R102). -/
theorem injectedRandomByteReachesTheRegister : Obligations.InjectedRandomByteReachesTheRegister := by
  intro x kk r s es hp hd
  have run : step s = exec (.rnd x kk) (State.beginStep r { s with draws := s.draws + 1, pending := es }) := by
    rw [step, hp]
    exact cpuStep_of_instr hd
  rw [State.beginStep_eq, exec_rnd] at run
  refine ⟨_, run, ?_, rfl, BitVec.toNat_add s.pc 2⟩
  exact (reg_of_setReg _ x x _ _).trans (if_pos rfl)

end Sys2Proof.Machine
end

section
/-! Reset and memory (spec/70_reset_and_hazards.md section 1, spec/20_memory.md section 2). -/

namespace Sys2Proof.Machine

/-- A byte of the small font, where the large font does not overlap it. -/
theorem State.resetWith_smallFont (q : Config) (time : Nat) {a : Nat} (ha : a < 80)
    (clear : ∀ i < 160, (q.bigFontBase.toNat + i) % 4096 ≠ a) : (State.resetWith q time).readByte a = q.fontSmall[a] := by
  have below : a < memSize := ha.trans (by decide)
  show resetByte q (a % memSize) = _
  rw [Nat.mod_eq_of_lt (b := memSize) below, resetByte_outside q below clear, dif_pos ha]

/-- A byte of the large font, where it stands inside memory. -/
theorem State.resetWith_largeFont (q : Config) (time : Nat) {i : Nat} (hi : i < 160) (below : q.bigFontBase.toNat + i < 4096) :
    (State.resetWith q time).readByte (q.bigFontBase.toNat + i) = q.fontLarge[i] := by
  show resetByte q (_ % memSize) = _
  rw [Nat.mod_eq_of_lt (b := memSize) below, resetByte_large q hi]

/-- A byte of neither font. -/
theorem State.resetWith_zero (q : Config) (time : Nat) {a : Nat} (ha : 80 ≤ a) (below : a < 4096)
    (clear : ∀ i < 160, (q.bigFontBase.toNat + i) % 4096 ≠ a) : (State.resetWith q time).readByte a = 0 := by
  show resetByte q (a % memSize) = _
  rw [Nat.mod_eq_of_lt (b := memSize) below, resetByte_outside q below clear, dif_neg (by omega)]

/-- Settles O6: the registers and the picture of the reset state are written out, and memory lists no cell, so that each byte
reads as its reset contents; by default the large font stands at 0x050..0x0EF. -/
theorem resetHoldsTheResetTable : Obligations.ResetHoldsTheResetTable := by
  have base : defaultConfig.bigFontBase.toNat = 0x050 := rfl
  refine ⟨fun q time => ?_, rfl, rfl, fun a ha => ?_, fun a ha below => ?_⟩
  · have pc : (q.loadAddress.setWidth 16).toNat = q.loadAddress.toNat := BitVec.toNat_setWidth_of_le (by decide)
    refine ⟨fun x => Vector.getElem_replicate _, fun x => Vector.getElem_replicate _, fun k => Vector.getElem_replicate _, rfl,
      pc, rfl, rfl, rfl, rfl, rfl, rfl, rfl, rfl, Frame.cell_clear, rfl, rfl, rfl, rfl, rfl, ?_, ?_, ?_⟩
    · exact fun a ha clear => State.resetWith_smallFont q time ha clear
    · exact fun i hi _ below => State.resetWith_largeFont q time hi below
    · exact fun a ha below clear => State.resetWith_zero q time ha below clear
  · exact State.resetWith_smallFont defaultConfig 0 ha fun i hi => by omega
  · exact State.resetWith_zero defaultConfig 0 (by omega) below fun i hi => by omega

/-- Settles O22: a write lists one byte, at the masked address, and raises `AddressOverflow` where masking changed it. -/
theorem writeChangesExactlyOneCell : Obligations.WriteChangesExactlyOneCell :=
  fun s a b v => ⟨State.readByte_memWrite s a b v, rfl, rfl⟩

end Sys2Proof.Machine
end

section
/-! The events of the timer and of the host (spec/60_exceptions.md sections 6 to 9). -/

namespace Sys2Proof.Machine

/-- An event whose step is a function of the state without the event has the effect that the function has. -/
theorem Performs.of_update {e : Event} {f : State → State → Prop} (g : State → State)
    (run : ∀ s es, s.pending = e :: es → step s = .next (g { s with pending := es })) (effect : ∀ s, f s (g s)) :
    Performs e f :=
  fun s es h => ⟨_, run s es h, effect _⟩

/-- Settles O52: the event is the write of one key slot (R185). -/
theorem setKeyWritesOneSlot : Obligations.SetKeyWritesOneSlot := by
  intro k pressed
  refine .of_update (State.setKey k pressed) (fun s es h => by rw [step, h]) fun s => ⟨fun j => ?_, rfl⟩
  exact State.key_setKey s k j pressed

/-- Settles O53: each event is the decrement of its own timer (R180, R182). -/
theorem ticksDecrementTowardZero : Obligations.TicksDecrementTowardZero :=
  ⟨.of_update State.tickDT (fun s es h => by rw [step, h]) fun s => ⟨decay_toNat s.dt, rfl⟩,
    .of_update State.tickST (fun s es h => by rw [step, h]) fun s => ⟨decay_toNat s.st, rfl⟩⟩

/-- Settles O56: the event is the clear of DIRTY (R187). -/
theorem consumeFrameClearsOnlyDirty : Obligations.ConsumeFrameClearsOnlyDirty :=
  .of_update State.consumeFrame (fun s es h => by rw [step, h]) fun _ => ⟨rfl, rfl⟩

theorem tickDue_iff (q : Config) (last now : Nat) : tickDue q last now = true ↔ last + q.tickPeriod ≤ now :=
  decide_eq_true_iff

/-- Settles O54: each half of the timed tick is its untimed tick with the timestamp moved, or nothing (R181). -/
theorem timedTickIsAnInterleavingOfUntimedTicks : Obligations.TimedTickIsAnInterleavingOfUntimedTicks := by
  intro now
  refine .of_update (State.tickTimers now) (fun s es h => by rw [step, h]) fun s => ?_
  rw [State.tickTimers_eq]
  simp only [tickDue_iff, true_and]
  split <;> split <;> rfl

/-- The two timers and their timestamps under a simulated clock: after `k` calls one clock unit apart each timer has ticked
`k / 2` times, the last of them at an even distance from the start (R183). -/
theorem State.clock_timers (t0 : Nat) (s : State) (period : s.cfg.tickPeriod = 2) (hDT : s.lastDT = t0) (hST : s.lastST = t0)
    (k : Nat) :
    (s.clock t0 k).cfg = s.cfg ∧
    (s.clock t0 k).lastDT = t0 + 2 * (k / 2) ∧ (s.clock t0 k).dt.toNat = s.dt.toNat - k / 2 ∧
    (s.clock t0 k).lastST = t0 + 2 * (k / 2) ∧ (s.clock t0 k).st.toNat = s.st.toNat - k / 2 := by
  induction k with
  | zero => exact ⟨rfl, hDT, rfl, hST, rfl⟩
  | succ k ih =>
    obtain ⟨cfg, lastDT, dt, lastST, st⟩ := ih
    rw [State.clock, State.tickTimers_eq]
    simp only [tickDue_iff, apply_ite BitVec.toNat, decay_toNat, cfg, lastDT, dt, lastST, st, period, true_and]
    split <;> omega

/-- Settles O55: a timer of 60 has lost one at each of the `k / 2` ticks (R183). -/
theorem timerCadenceOverOneSecond : Obligations.TimerCadenceOverOneSecond := by
  intro t0 s period hDT hST
  refine ⟨fun start k _ => ?_, fun start k _ => ?_⟩
  · obtain ⟨-, -, dt, -⟩ := s.clock_timers t0 period hDT hST k
    rw [dt, start]
  · obtain ⟨-, -, -, -, st⟩ := s.clock_timers t0 period hDT hST k
    rw [st, start]

theorem State.loadEvent_of_overruns {s : State} {bytes : List Byte} {address : Word}
    (overruns : 4096 < address.toNat + bytes.length) :
    s.loadEvent bytes address = { s with loadResult := some .loadError } := by
  have failed : s.load bytes address = (.loadError, s) := if_pos overruns
  rw [State.loadEvent, failed]

theorem State.loadEvent_of_fits {s : State} {bytes : List Byte} {address : Word}
    (fits : address.toNat + bytes.length ≤ 4096) : s.loadEvent bytes address =
      { s with mem := Memory.writeAll s.cfg s.mem address.toNat bytes, loadResult := some .ok } := by
  have loaded : s.load bytes address = (.ok, { s with mem := Memory.writeAll s.cfg s.mem address.toNat bytes }) :=
    if_neg (Nat.not_lt.mpr fits)
  rw [State.loadEvent, loaded]

/-- Settles O57: `Load` fails as a whole or writes all its bytes (R189). -/
theorem loadWritesMemoryOrNothing : Obligations.LoadWritesMemoryOrNothing := by
  intro bytes address
  refine .of_update (State.loadEvent bytes address) (fun s es h => by rw [step, h]) fun s => ⟨fun overruns => ?_, fun fits => ?_⟩
  · rw [State.loadEvent_of_overruns overruns]
    exact ⟨rfl, rfl⟩
  · rw [State.loadEvent_of_fits fits]
    refine ⟨fun j hj => ?_, fun a below outside => ?_, rfl, rfl⟩
    · show Memory.read s.cfg (Memory.writeAll s.cfg s.mem address.toNat bytes) ((address.toNat + j) % memSize) = _
      rw [Nat.mod_eq_of_lt (show _ < memSize by simp only [memSize]; omega), Memory.read_writeAll, if_pos (by omega)]
      simp [hj]
    · show Memory.read s.cfg (Memory.writeAll s.cfg s.mem address.toNat bytes) (a % memSize) =
        Memory.read s.cfg s.mem (a % memSize)
      rw [Nat.mod_eq_of_lt (b := memSize) below, Memory.read_writeAll]
      split
      · rw [List.getElem?_eq_none (by omega)]; rfl
      · rfl

/-- Settles O58: Reset overwrites everything but the configuration, the draw counter and the queue, so a second one finds
nothing to change (R200). -/
theorem resetReturnsToTheResetState : Obligations.ResetReturnsToTheResetState := by
  refine ⟨fun time => ?_, fun time s es h => ?_⟩
  · exact .of_update (State.resetEvent time) (fun s es h => by rw [step, h]) fun s => ⟨rfl, rfl, rfl⟩
  · refine ⟨State.resetEvent time { s with pending := .reset time :: es },
      State.resetEvent time { s with pending := es }, by rw [step, h], rfl, rfl⟩

end Sys2Proof.Machine
end

section
/-! Control (spec/40_control.md): the compares, the indexed jump, CALL and RET. -/

namespace Sys2Proof.Machine

/-- Settles O25: as for the compares with a constant; registers are equal as bytes exactly when they are equal as numbers. -/
theorem skipsOnRegisterCompare : Obligations.SkipsOnRegisterCompare := by
  intro x y s
  refine ⟨⟨_, exec_seReg s x y, OnlyPc.of_pc_update s _, ?_⟩, ⟨_, exec_sneReg s x y, OnlyPc.of_pc_update s _, ?_⟩⟩
  · rw [toNat_skip_target]
    simp only [beq_iff_eq, BitVec.toNat_inj]
  · rw [toNat_skip_target]
    simp only [bne_iff_ne, BitVec.toNat_inj, ne_eq, ite_not]

/-- Settles O26: a 12-bit address and a byte never reach 65536, so the sum does not wrap (R78). -/
theorem indexedJumpAddsTheSelectedRegister : Obligations.IndexedJumpAddsTheSelectedRegister := by
  intro nnn s
  have selected : s.jumpReg nnn = if s.cfg.jumpQuirk then BitVec.ofNat 4 (nnn.toNat / 256) else 0 := by
    have quotient : nnn.extractLsb' 8 4 = BitVec.ofNat 4 (nnn.toNat / 256) := by
      rw [BitVec.extractLsb', Nat.shiftRight_eq_div_pow]
    rw [State.jumpReg, quotient]
  refine ⟨_, exec_jpV0 s nnn, OnlyPc.of_pc_update s _, ?_⟩
  rw [← selected]
  show (nnn.setWidth 16 + (s.reg (s.jumpReg nnn)).setWidth 16).toNat = _
  rw [BitVec.toNat_add, BitVec.toNat_setWidth_of_le (by decide), BitVec.toNat_setWidth_of_le (by decide)]
  omega

/-- The next state of CALL with a free slot. -/
theorem exec_call_push (s : State) (nnn : Addr12) (free : s.sp.val < 16) : exec (.call nnn) s = .next { s with
    stack := s.stack.set s.sp.val s.pc free, sp := ⟨s.sp.val + 1, by omega⟩, pc := nnn.setWidth 16 } := by
  rw [exec_call, dif_pos free]

/-- The next state of RET with an occupied slot. -/
theorem exec_ret_pop (s : State) (occupied : s.sp.val ≠ 0) : exec .ret s = .next { s with
    sp := ⟨s.sp.val - 1, by omega⟩, pc := s.top + 2 } := by
  rw [exec_ret, if_neg occupied]

/-- Settles O27: the slot at SP takes the address of the CALL (R71, R73). -/
theorem callPushesItsOwnAddressAndJumps : Obligations.CallPushesItsOwnAddressAndJumps := by
  intro nnn s free
  refine ⟨_, exec_call_push s nnn free, BitVec.toNat_setWidth_of_le (by decide), rfl, fun k hk => ?_, rfl, fun _ => rfl⟩
  simp only [Vector.getElem_set, eq_comm]

/-- Settles O28: the popped slot is the one below SP (R70). -/
theorem retPopsAndAddsTwo : Obligations.RetPopsAndAddsTwo := by
  intro s occupied
  refine ⟨_, exec_ret_pop s occupied, ?_, fun _ => BitVec.toNat_add s.top 2, rfl, fun _ => rfl⟩
  show s.sp.val - 1 + 1 = s.sp.val
  omega

/-- A degraded instruction changes DIAG and PC only. -/
theorem OnlyDiag.of_diag_update (s : State) (d : BitVec 4) (a : Word) : OnlyDiag s { s with diag := d, pc := a } where
  rest := rfl
  memory _ := rfl

/-- Settles O29: both guards answer the diagnostic and the advance, nothing else (R70, R73, R170). -/
theorem stackGuardsDegradeToNoOps : Obligations.StackGuardsDegradeToNoOps := by
  refine ⟨fun s empty => ?_, fun nnn s full => ?_⟩
  · have degraded : exec .ret s = .next { s with diag := s.diag ||| 0b0010, pc := s.pc + 2 } := by
      rw [exec_ret, if_pos empty]
    exact ⟨_, degraded, rfl, BitVec.toNat_add s.pc 2, OnlyDiag.of_diag_update s _ _⟩
  · have degraded : exec (.call nnn) s = .next { s with diag := s.diag ||| 0b0100, pc := s.pc + 2 } := by
      rw [exec_call, dif_neg (by omega)]
    exact ⟨_, degraded, rfl, BitVec.toNat_add s.pc 2, OnlyDiag.of_diag_update s _ _⟩

/-- Settles O30: the slot RET pops is the one CALL pushed, so PC comes back to the CALL and SP to where it was (R71). -/
theorem retAfterCallReturnsBehindTheCall : Obligations.RetAfterCallReturnsBehindTheCall := by
  intro nnn s free
  refine ⟨_, _, exec_call_push s nnn free, exec_ret_pop _ (Nat.succ_ne_zero _), ?_, fun k hk => ?_, rfl⟩
  · have pushed : (s.push s.pc free).top = s.pc := State.top_push s s.pc free
    show ((s.push s.pc free).top + 2).toNat = _
    rw [pushed]
    exact BitVec.toNat_add s.pc 2
  · simp only [Vector.getElem_set, eq_comm]

end Sys2Proof.Machine
end

section
/-! Arithmetic and logic (spec/41_alu.md). -/

namespace Sys2Proof.Machine

/-- The register bits of a state that takes over the register file of one register write. -/
theorem getLsbD_reg_of_setReg (s : State) (x r : RegIdx) (b : Byte) (a : Word) (j : Nat) :
    (({ s with v := (s.setReg x b).v, pc := a } : State).reg r).getLsbD j =
      if r = x then b.getLsbD j else (s.reg r).getLsbD j := by
  rw [reg_of_setReg, apply_ite (BitVec.getLsbD · j)]

/-- Settles O32: each is one write to V[x], of the copy or of the bitwise result (R93 to R95, R101). -/
theorem registerCopyAndLogic : Obligations.RegisterCopyAndLogic := by
  intro x y s
  refine ⟨⟨_, exec_ldReg s x y, Advances.of_regs_update s _, OnlyRegs.of_regs_update s _ _, fun r j => ?_⟩,
    ⟨_, exec_orReg s x y, Advances.of_regs_update s _, OnlyRegs.of_regs_update s _ _, fun r j => ?_⟩,
    ⟨_, exec_andReg s x y, Advances.of_regs_update s _, OnlyRegs.of_regs_update s _ _, fun r j => ?_⟩,
    ⟨_, exec_xorReg s x y, Advances.of_regs_update s _, OnlyRegs.of_regs_update s _ _, fun r j => ?_⟩⟩
  · rw [getLsbD_reg_of_setReg]
  · rw [getLsbD_reg_of_setReg, BitVec.getLsbD_or]
  · rw [getLsbD_reg_of_setReg, BitVec.getLsbD_and]
  · rw [getLsbD_reg_of_setReg, BitVec.getLsbD_xor]

/-- Settles O35: one write to V[x], of the byte on the port AND the constant (R102). -/
theorem randomByteIsMasked : Obligations.RandomByteIsMasked := by
  intro x kk s
  refine ⟨_, exec_rnd s x kk, Advances.of_regs_update s _, OnlyRegs.of_regs_update s _ _, fun r j => ?_⟩
  rw [getLsbD_reg_of_setReg, BitVec.getLsbD_and]

theorem flagByte_toNat (c : Bool) : (flagByte c).toNat = if c = true then 1 else 0 := by cases c <;> rfl

/-- The registers, as numbers, after a result and then a flag (R90). -/
theorem toNat_reg_of_setReg_setFlag (s : State) (x r : RegIdx) (b : Byte) (c : Bool) (a : Word) :
    (({ s with v := ((s.setReg x b).setFlag c).v, pc := a } : State).reg r).toNat =
      if r = 15 then (if c = true then 1 else 0) else if r = x then b.toNat else (s.reg r).toNat := by
  have same_file : ({ s with v := ((s.setReg x b).setFlag c).v, pc := a } : State).reg r = ((s.setReg x b).setFlag c).reg r :=
    State.reg_congr rfl r
  rw [same_file, State.reg_setFlag, State.reg_setReg, apply_ite BitVec.toNat, apply_ite BitVec.toNat, flagByte_toNat, vf]

theorem carry_iff (a b : Byte) : carry a b = true ↔ 255 < a.toNat + b.toNat := decide_eq_true_iff

theorem noBorrow_iff (a b : Byte) : noBorrow a b = true ↔ b.toNat ≤ a.toNat := decide_eq_true_iff

/-- Subtraction of bytes, as numbers (R103). -/
theorem toNat_sub_byte (a b : Byte) : (a - b).toNat = (a.toNat + 256 - b.toNat) % 256 := by
  rw [BitVec.toNat_sub]
  omega

/-- Settles O33: each is a result and then a flag, both of the old values (R90, R96, R97, R99). -/
theorem addAndSubtractSetVF : Obligations.AddAndSubtractSetVF := by
  intro x y s
  refine ⟨⟨_, exec_addReg s x y, Advances.of_regs_update s _, OnlyRegs.of_regs_update s _ _, fun r => ?_⟩,
    ⟨_, exec_sub s x y, Advances.of_regs_update s _, OnlyRegs.of_regs_update s _ _, fun r => ?_⟩,
    ⟨_, exec_subn s x y, Advances.of_regs_update s _, OnlyRegs.of_regs_update s _ _, fun r => ?_⟩⟩
  · have sum_toNat : (s.reg x + s.reg y).toNat = ((s.reg x).toNat + (s.reg y).toNat) % 256 := BitVec.toNat_add _ _
    rw [toNat_reg_of_setReg_setFlag, sum_toNat]
    simp only [carry_iff]
  · rw [toNat_reg_of_setReg_setFlag, toNat_sub_byte]
    simp only [noBorrow_iff]
  · rw [toNat_reg_of_setReg_setFlag, toNat_sub_byte]
    simp only [noBorrow_iff]

theorem shiftedOutRight_iff (b : Byte) : shiftedOutRight b = true ↔ b.toNat % 2 = 1 := by
  simp [shiftedOutRight, BitVec.getLsbD, Nat.testBit_zero]

theorem shiftedOutLeft_iff (b : Byte) : shiftedOutLeft b = true ↔ 128 ≤ b.toNat := by
  have top_bit : shiftedOutLeft b = b.msb := (BitVec.msb_eq_getLsbD_last b).symm
  rw [top_bit, BitVec.msb_eq_decide, decide_eq_true_iff]

/-- Settles O34: each is a result and then a flag, of the configured operand (R90, R98, R100). -/
theorem shiftsMoveOneBitIntoVF : Obligations.ShiftsMoveOneBitIntoVF := by
  intro x y s a
  have operand : (s.shiftOperand x y).toNat = a := by
    simp only [a, State.shiftOperand, apply_ite s.reg]
  refine ⟨⟨_, exec_shr s x y, Advances.of_regs_update s _, OnlyRegs.of_regs_update s _ _, fun r => ?_⟩,
    ⟨_, exec_shl s x y, Advances.of_regs_update s _, OnlyRegs.of_regs_update s _ _, fun r => ?_⟩⟩
  · have half : (s.shiftOperand x y >>> 1).toNat = a / 2 := by
      rw [BitVec.toNat_ushiftRight, operand, Nat.shiftRight_eq_div_pow]
    rw [toNat_reg_of_setReg_setFlag, half]
    simp only [shiftedOutRight_iff, operand]
  · have double : (s.shiftOperand x y <<< 1).toNat = a * 2 % 256 := by
      rw [BitVec.toNat_shiftLeft, operand, Nat.shiftLeft_eq]
    rw [toNat_reg_of_setReg_setFlag, double]
    simp only [shiftedOutLeft_iff, operand]

end Sys2Proof.Machine
end

section
/-! Index register, memory and auxiliary registers (spec/42_index_memory.md). -/

namespace Sys2Proof.Machine

theorem indexOverflow_iff (q : Config) (sum : Nat) :
    indexOverflow q sum = true ↔ (if q.addiOverflowInclusive then 0xFFF else 0x1000) ≤ sum := by
  unfold indexOverflow
  split <;> simp [Nat.succ_le_iff]

/-- Settles O38: I takes the sum modulo 65536, VF the comparison of the unclamped sum with the threshold (R111). -/
theorem addToIndexWrapsAndFlags : Obligations.AddToIndexWrapsAndFlags := by
  intro x s
  refine ⟨_, exec_addI s x, BitVec.toNat_add s.pc 2, ?_, ?_, fun r hr => ?_, rfl, fun _ => rfl⟩
  · show (s.i + (s.reg x).setWidth 16).toNat = _
    rw [BitVec.toNat_add, BitVec.toNat_setWidth_of_le (by decide)]
  · refine (State.reg_setFlag s _ 15).trans ?_
    rw [if_pos (show (15 : RegIdx) = vf from rfl), flagByte]
    simp only [indexOverflow_iff]
  · exact (State.reg_setFlag s _ r).trans (if_neg hr)

theorem smallGlyphAddr_toNat (b : Byte) : (smallGlyphAddr b).toNat = b.toNat * 5 := by
  rw [smallGlyphAddr, BitVec.toNat_ofNat]
  omega

theorem bigGlyphAddr_toNat (q : Config) (b : Byte) : (bigGlyphAddr q b).toNat = q.bigFontBase.toNat + b.toNat * 10 := by
  rw [bigGlyphAddr, BitVec.toNat_ofNat]
  omega

/-- Settles O39: no glyph address reaches 65536, so none wraps (R112, R113). -/
theorem fontAddressesFollowTheMode : Obligations.FontAddressesFollowTheMode := by
  intro x s
  refine ⟨⟨_, exec_ldF s x, Advances.of_index_update s _, OnlyIndex.of_index_update s _ _, ?_⟩,
    ⟨_, exec_ldHF s x, Advances.of_index_update s _, OnlyIndex.of_index_update s _ _, bigGlyphAddr_toNat _ _⟩⟩
  show (s.fontAddr (s.reg x)).toNat = _
  rw [State.fontAddr, apply_ite BitVec.toNat, bigGlyphAddr_toNat, smallGlyphAddr_toNat]

/-- Memory after the three digits of LD B,Vx, byte by byte: the last write to an address wins (R114). -/
theorem State.readByte_bcdMem (s : State) (b : Byte) (d : BitVec 4) (p : Word) (a : Nat) :
    ({ s with mem := s.bcdMem b, diag := d, pc := p } : State).readByte a =
      if a % memSize = s.indexAddr 2 % memSize then ones b
      else if a % memSize = s.indexAddr 1 % memSize then tens b
      else if a % memSize = s.indexAddr 0 % memSize then hundreds b
      else s.readByte a := by
  have writes : ({ s with mem := s.bcdMem b, diag := d, pc := p } : State).readByte a =
      (((s.memWrite (s.indexAddr 0) (hundreds b)).memWrite (s.indexAddr 1) (tens b)).memWrite
        (s.indexAddr 2) (ones b)).readByte a :=
    State.readByte_congr (by simp only [State.memWrite_cfg]) (by simp only [State.bcdMem]) a
  rw [writes, State.readByte_memWrite, State.readByte_memWrite, State.readByte_memWrite]

/-- A decimal digit fits in a byte. -/
theorem toNat_ofNat_digit {n : Nat} (hn : n < 10) : (BitVec.ofNat 8 n).toNat = n := by
  rw [BitVec.toNat_ofNat, Nat.mod_eq_of_lt (by omega)]

/-- Settles O40: the three addresses differ modulo 4096, so no digit overwrites another (R114). -/
theorem bcdStoresThreeDigits : Obligations.BcdStoresThreeDigits := by
  intro x s
  have apart (j k : Nat) (hj : j < 3) (hk : k < 3) (h : j ≠ k) : s.indexAddr j % memSize ≠ s.indexAddr k % memSize := by
    simp only [State.indexAddr, memSize]
    omega
  refine ⟨_, exec_ldB s x, BitVec.toNat_add s.pc 2, ?_, ?_, ?_, fun a outside => ?_, rfl, rfl⟩
  · rw [State.readByte_bcdMem, if_neg (apart 0 2 (by decide) (by decide) (by decide)),
      if_neg (apart 0 1 (by decide) (by decide) (by decide)), if_pos rfl, hundreds, toNat_ofNat_digit (by omega)]
  · rw [State.readByte_bcdMem, if_neg (apart 1 2 (by decide) (by decide) (by decide)), if_pos rfl, tens,
      toNat_ofNat_digit (by omega)]
  · rw [State.readByte_bcdMem, if_pos rfl, ones, toNat_ofNat_digit (by omega)]
  · change ∀ k < 3, a % memSize ≠ s.indexAddr k % memSize at outside
    rw [State.readByte_bcdMem, if_neg (outside 2 (by decide)), if_neg (outside 1 (by decide)),
      if_neg (outside 0 (by decide))]

/-- The configured step of I, as a number (R115, R116). -/
theorem State.stepIndex_toNat (x : RegIdx) (s : State) : (s.stepIndex x).i.toNat =
    if s.cfg.storeLoadIncrementsIndex then (s.i.toNat + x.toNat + 1) % 65536 else s.i.toNat := by
  rw [State.stepIndex, apply_ite BitVec.toNat, BitVec.toNat_add, BitVec.toNat_add, BitVec.toNat_setWidth_of_le (by decide)]
  simp

/-- A byte of memory in a state that takes over memory from a register dump. -/
theorem readByte_of_storeRegs (s : State) (base n : Nat) (v : Vector Byte 16) (i p : Word) (d : BitVec 4) (a : Nat) :
    ({ s with v := v, i := i, mem := (s.storeRegs base n).mem, diag := d, pc := p } : State).readByte a =
      (s.storeRegs base n).readByte a := by
  have cfg : (s.storeRegs base n).cfg = s.cfg := by rw [State.storeRegs_eq]
  exact State.readByte_congr (by rw [cfg]) (by rfl) a

/-- Settles O41: the dump is the transfer of registers 0 to x to memory, then the step of I (R115). -/
theorem registerDumpStoresV0ToVx : Obligations.RegisterDumpStoresV0ToVx := by
  intro x s
  have bound : x.toNat + 1 ≤ 16 := x.isLt
  refine ⟨_, exec_ldMemVx s x, BitVec.toNat_add s.pc 2, fun k hk => ?_, fun a outside => ?_, s.stepIndex_toNat x, rfl, rfl⟩
  · rw [readByte_of_storeRegs]
    exact (s.readByte_storeRegs _ _ _ bound).1 k (by omega) rfl
  · rw [readByte_of_storeRegs]
    exact (s.readByte_storeRegs _ _ _ bound).2 fun k hk => outside k (by omega)

/-- A register in a state that takes over the register file of a load of registers 0 to x. -/
theorem reg_of_loadRegs (s : State) (base : Nat) (x r : RegIdx) (i p : Word) (d : BitVec 4) :
    ({ s with v := (s.loadRegs base (x.toNat + 1)).v, i := i, diag := d, pc := p } : State).reg r =
      if r.toNat ≤ x.toNat then s.readByte (base + r.toNat) else s.reg r := by
  refine (State.reg_loadRegs s base _ r x.isLt).trans ?_
  simp only [Nat.lt_succ_iff]

/-- Settles O42: the load is the transfer of registers 0 to x from memory, then the step of I (R116). -/
theorem registerLoadFillsV0ToVx : Obligations.RegisterLoadFillsV0ToVx := by
  intro x s
  exact ⟨_, exec_ldVxMem s x, BitVec.toNat_add s.pc 2, fun r => reg_of_loadRegs s _ x r _ _ _, s.stepIndex_toNat x, rfl, rfl, fun _ => rfl⟩

/-- Settles O43: with I where it was, the load reads the cells that the dump wrote. -/
theorem dumpThenLoadRestoresTheRegisters : Obligations.DumpThenLoadRestoresTheRegisters := by
  intro x s still
  have same_index : (s.stepIndex x).i = s.i := by rw [State.stepIndex, still]; rfl
  refine ⟨_, exec_ldMemVx s x, fun v => ⟨_, exec_ldVxMem _ x, fun r hr => ?_, fun r hr => ?_⟩⟩
  · rw [reg_of_loadRegs, if_pos hr]
    refine (readByte_of_storeRegs s s.i.toNat (x.toNat + 1) v _ _ _ _).trans ?_
    show (s.storeRegs s.i.toNat (x.toNat + 1)).readByte ((s.stepIndex x).i.toNat + r.toNat) = s.reg r
    rw [same_index, (s.readByte_storeRegs _ _ _ x.isLt).1 r.toNat (by omega) rfl, BitVec.ofNat_toNat, BitVec.setWidth_eq]
  · rw [reg_of_loadRegs, if_neg (by omega)]

/-- Settles O44: the two transfers of registers 0 to x (R117, R118). -/
theorem auxiliaryTransfersCopyV0ToVx : Obligations.AuxiliaryTransfersCopyV0ToVx := by
  intro x s
  refine ⟨⟨_, exec_ldRVx s x, BitVec.toNat_add s.pc 2, fun r => ?_, rfl, fun _ => rfl⟩,
    ⟨_, exec_ldVxR s x, Advances.of_regs_update s _, OnlyRegs.of_regs_update s _ _, fun r => ?_⟩⟩
  · refine (State.auxReg_storeAux s _ r x.isLt).trans ?_
    simp only [Nat.lt_succ_iff]
  · refine (State.reg_loadAux s _ r x.isLt).trans ?_
    simp only [Nat.lt_succ_iff]

end Sys2Proof.Machine
end

section
/-! Timers and keypad (spec/44_timer_keypad.md): the key skips and the key wait. -/

namespace Sys2Proof.Machine

/-- Settles O49: the low four bits of a byte are its remainder by 16 (R150, R151). -/
theorem keySkipsTestTheIndexedSlot : Obligations.KeySkipsTestTheIndexedSlot := by
  intro x s pressed
  have slot : s.key (s.keyIndex x) = pressed := by
    have index : s.keyIndex x = BitVec.ofNat 4 ((s.reg x).toNat % 16) := by
      rw [← BitVec.toNat_inj, State.keyIndex, BitVec.extractLsb'_toNat, BitVec.toNat_ofNat]
      simp
    rw [index]
  refine ⟨⟨_, exec_skp s x, OnlyPc.of_pc_update s _, ?_⟩, ⟨_, exec_sknp s x, OnlyPc.of_pc_update s _, ?_⟩⟩
  · rw [toNat_skip_target, slot]
  · rw [toNat_skip_target, slot]
    cases pressed <;> rfl

/-- The least pressed key is the first one found (R155). -/
theorem State.firstKey_of_least {s : State} {k : BitVec 4} (hk : s.key k = true) (least : ∀ j, j < k → s.key j = false) :
    s.firstKey = some k.toNat := by
  cases found : s.firstKey with
  | none => simp [s.firstKey_eq_none.mp found k] at hk
  | some n =>
    obtain ⟨hn, pressed, below⟩ := s.firstKey_eq_some found
    have not_above : n ≤ k.toNat := by
      by_contra above
      have unpressed := below k.toNat (by omega)
      rw [BitVec.ofNat_toNat, BitVec.setWidth_eq, hk] at unpressed
      cases unpressed
    have not_below : k.toNat ≤ n := by
      by_contra under
      have unpressed := least (BitVec.ofNat 4 n) (by
        rw [BitVec.lt_def, BitVec.toNat_ofNat, Nat.mod_eq_of_lt (by omega)]; omega)
      rw [pressed] at unpressed
      cases unpressed
    rw [Nat.le_antisymm not_above not_below]

/-- Settles O51: the wait is a match on the first pressed key (R155). -/
theorem keyWaitGatesThePc : Obligations.KeyWaitGatesThePc := by
  refine ⟨fun x s silent => ?_, fun x k s hk least => ?_⟩
  · rw [exec_ldVxK, s.firstKey_eq_none.mpr silent]
  · have run := exec_ldVxK s x
    rw [State.firstKey_of_least hk least] at run
    refine ⟨_, run, Advances.of_regs_update s _, OnlyRegs.of_regs_update s _ _, fun r => ?_⟩
    have fits : (BitVec.ofNat 8 k.toNat).toNat = k.toNat := by
      rw [BitVec.toNat_ofNat, Nat.mod_eq_of_lt (by omega)]
    exact (toNat_reg_of_setReg s x r _ _).trans (by rw [fits])

end Sys2Proof.Machine
end

section
/-! The display (spec/43_display.md): clears, modes and scrolls. -/

namespace Sys2Proof.Machine

/-- A new picture, DIRTY and PC are a change of these only. -/
theorem OnlyPicture.of_picture_update (s : State) (f : Frame) (d : Bool) (a : Word) :
    OnlyPicture s { s with fb := f, dirty := d, pc := a } where
  rest := rfl
  memory _ := rfl

/-- Advancing PC by one instruction, whatever the picture and the mode become, is what `Advances` says (R7). -/
theorem Advances.of_picture_update (s : State) (e d : Bool) (f : Frame) :
    Advances s { s with ext := e, fb := f, dirty := d, pc := s.pc + 2 } :=
  BitVec.toNat_add s.pc 2

/-- Settles O45: all three show the clear buffer, LOW and HIGH in the new mode (R130, R136, R137). -/
theorem clearAndModeInstructionsClearTheGrid : Obligations.ClearAndModeInstructionsClearTheGrid := by
  intro s
  have clear (h w : Nat) : ∀ row col, row < h → col < w → Frame.clear.cell row col = false :=
    fun row col _ _ => Frame.cell_clear row col
  refine ⟨⟨_, exec_cls s, ?_⟩, ⟨_, exec_low s, ?_⟩, ⟨_, exec_high s, ?_⟩⟩
  · exact ⟨Advances.of_picture_update s s.ext _ _, rfl, OnlyPicture.of_picture_update s _ _ _, clear _ _⟩
  · exact ⟨Advances.of_picture_update s false _ _, rfl, rfl, OnlyPicture.of_picture_update { s with ext := false } _ _ _,
      rfl, rfl, clear _ _⟩
  · exact ⟨Advances.of_picture_update s true _ _, rfl, rfl, OnlyPicture.of_picture_update { s with ext := true } _ _ _,
      rfl, rfl, clear _ _⟩

/-- Settles O46: each scroll shows the moved grid, and the statement leaves out the cells whose source is outside it, which
take free values (R133 to R135). -/
theorem scrollsShiftTheGrid : Obligations.ScrollsShiftTheGrid := by
  intro n s
  refine ⟨⟨_, exec_scd s n, Advances.of_picture_update s s.ext _ _, rfl, OnlyPicture.of_picture_update s _ _ _, ?_⟩,
    ⟨_, exec_scr s, Advances.of_picture_update s s.ext _ _, rfl, OnlyPicture.of_picture_update s _ _ _, ?_⟩,
    ⟨_, exec_scl s, Advances.of_picture_update s s.ext _ _, rfl, OnlyPicture.of_picture_update s _ _ _, ?_⟩⟩
  · intro row col hrow hcol
    change row < gridHeight s.ext at hrow
    change col < gridWidth s.ext at hcol
    simp only [Frame.cell_scrollDown, hrow, hcol, true_and]
    by_cases h : n.toNat ≤ row <;> simp [h]
  · intro row col hrow hcol inside
    change row < gridHeight s.ext at hrow
    change col < gridWidth s.ext at hcol
    change (col : Int) - s.cfg.scrollH < gridWidth s.ext at inside
    simp only [Frame.cell_scrollRight, hrow, hcol, inside, if_true, true_and, decide_true, Bool.true_and]
    by_cases h : s.cfg.scrollH ≤ col
    · rw [if_neg (not_lt.mpr h), if_pos h]
    · rw [if_pos (not_le.mp h), if_neg h]
  · intro row col hrow hcol inside
    change row < gridHeight s.ext at hrow
    change col < gridWidth s.ext at hcol
    change _ = if (col : Int) + s.cfg.scrollH ≤ gridWidth s.ext - 1 then _ else _
    simp only [Frame.cell_scrollLeft, hrow, hcol, inside, if_true, true_and, decide_true, Bool.true_and]
    by_cases h : (gridWidth s.ext : Int) ≤ col + s.cfg.scrollH
    · rw [if_pos h, if_neg (by omega)]
    · rw [if_neg h, if_pos (by omega)]

end Sys2Proof.Machine
end

section
/-! Drawing (spec/43_display.md R131): the picture cell by cell, and the collision flag. -/

namespace Sys2Proof.Machine

/-- At most 16 columns side by side never wrap onto each other: W is at least 64. -/
theorem column_unique (e : Bool) (x0 : Nat) {c c' : Nat} (hc : c < 16) (hc' : c' < 16)
    (h : (x0 + c) % gridWidth e = (x0 + c') % gridWidth e) : c = c' := by
  have hW : gridWidth e = 64 ∨ gridWidth e = 128 := by cases e <;> simp [gridWidth]
  rcases hW with hW | hW <;> rw [hW] at h <;> omega

/-- The mask of a sprite row, at the cell of one of its columns. -/
theorem Sprite.getLsbD_rowMask_column (e : Bool) (p : Sprite) (hcols : p.cols ≤ 16) (r : Nat) {c : Nat} (hc : c < p.cols) :
    (p.rowMask (gridWidth e) r p.cols).getLsbD ((p.x0 + c) % gridWidth e) = p.on r c := by
  rw [Bool.eq_iff_iff, p.getLsbD_rowMask _ _ _ _ (gridWidth_le e) (gridWidth_pos e)]
  constructor
  · rintro ⟨c', hc', on, same⟩
    rwa [column_unique e p.x0 (by omega) (by omega) same]
  · exact fun on => ⟨c, hc, on, rfl⟩

/-- Drawing XORs each bit of the sprite onto its cell. -/
theorem Frame.cell_draw (e : Bool) (p : Sprite) (f : Frame) {n r c : Nat} (hn : n ≤ 16) (hcols : p.cols ≤ 16) (hr : r < n)
    (hc : c < p.cols) :
    (Frame.draw e p f n).1.cell ((p.y0 + r) % gridHeight e) ((p.x0 + c) % gridWidth e) =
      (f.cell ((p.y0 + r) % gridHeight e) ((p.x0 + c) % gridWidth e) ^^ p.on r c) := by
  rw [Frame.cell, (Frame.row_draw e p f n hn).1 r hr, BitVec.getLsbD_xor, p.getLsbD_rowMask_column e hcols r hc, Frame.cell]

/-- Drawing leaves every cell that no bit of the sprite falls on. -/
theorem Frame.cell_draw_outside (e : Bool) (p : Sprite) (f : Frame) {n : Nat} (hn : n ≤ 16) {row col : Nat}
    (outside : ∀ r < n, ∀ c < p.cols, ¬(row = (p.y0 + r) % gridHeight e ∧ col = (p.x0 + c) % gridWidth e)) :
    (Frame.draw e p f n).1.cell row col = f.cell row col := by
  rw [Frame.cell, Frame.cell]
  by_cases drawn : ∃ r < n, row = (p.y0 + r) % gridHeight e
  · obtain ⟨r, hr, rfl⟩ := drawn
    have off : (p.rowMask (gridWidth e) r p.cols).getLsbD col = false := by
      rw [← Bool.not_eq_true, p.getLsbD_rowMask _ _ _ _ (gridWidth_le e) (gridWidth_pos e)]
      rintro ⟨c, hc, -, hcol⟩
      exact outside r hr c hc ⟨rfl, hcol⟩
    rw [(Frame.row_draw e p f n hn).1 r hr, BitVec.getLsbD_xor, off, Bool.xor_false]
  · rw [(Frame.row_draw e p f n hn).2 row fun r hr hrow => drawn ⟨r, hr, hrow⟩]

/-- Drawing the same sprite twice gives back the buffer (R138). -/
theorem Frame.draw_draw (e : Bool) (p : Sprite) (f : Frame) {n : Nat} (hn : n ≤ 16) :
    (Frame.draw e p (Frame.draw e p f n).1 n).1 = f := by
  obtain ⟨drawn1, kept1⟩ := Frame.row_draw e p f n hn
  obtain ⟨drawn2, kept2⟩ := Frame.row_draw e p (Frame.draw e p f n).1 n hn
  refine Frame.ext_rows fun row _ => ?_
  by_cases drawn : ∃ r < n, row = (p.y0 + r) % gridHeight e
  · obtain ⟨r, hr, rfl⟩ := drawn
    rw [drawn2 r hr, drawn1 r hr, BitVec.xor_assoc, BitVec.xor_self, BitVec.xor_zero]
  · have missed : ∀ r < n, row ≠ (p.y0 + r) % gridHeight e := fun r hr hrow => drawn ⟨r, hr, hrow⟩
    rw [kept2 row missed, kept1 row missed]

/-! ## The sprite of DRW -/

theorem State.spriteRows_le (s : State) (n : Nibble) : s.spriteRows n ≤ 16 := by
  have hn := n.isLt
  unfold State.spriteRows
  split <;> omega

theorem State.sprite_cols_le (s : State) (x y : RegIdx) (n : Nibble) : (s.sprite x y n).cols ≤ 16 := by
  show (if s.bigSprite n then 16 else 8) ≤ 16
  split <;> omega

/-- The bits DRW draws, as R131 names them: the leftmost column is bit 7 of a byte, and the left half of a 16-column row the
byte at the lower address (D15). -/
theorem State.sprite_on (s : State) (x y : RegIdx) (n : Nibble) (r c : Nat) (hc : c < (s.sprite x y n).cols) :
    (s.sprite x y n).on r c = s.spriteDot n r c := by
  change c < (if s.bigSprite n then 16 else 8) at hc
  show (s.spriteBits n r).getLsbD ((if s.bigSprite n then 16 else 8) - 1 - c) = if s.bigSprite n then _ else _
  unfold State.spriteBits
  by_cases big : s.bigSprite n = true
  · simp only [big, if_true] at hc ⊢
    rw [wordOfBytes, BitVec.getLsbD_append]
    by_cases left : c < 8
    · rw [if_neg (by omega), show 16 - 1 - c - 8 = 7 - c % 8 by omega, State.indexAddr,
        Nat.div_eq_of_lt left, Nat.add_zero]
    · rw [if_pos (by omega), show 16 - 1 - c = 7 - c % 8 by omega, State.indexAddr,
        show s.i.toNat + (2 * r + 1) = s.i.toNat + 2 * r + c / 8 by omega]
  · simp only [big] at hc ⊢
    change c < 8 at hc
    show ((s.readByte (s.indexAddr r)).setWidth 16).getLsbD (7 - c) = (s.readByte (s.i.toNat + r)).getLsbD (7 - c)
    rw [BitVec.getLsbD_setWidth, decide_eq_true (by omega), Bool.true_and, State.indexAddr]

theorem State.vf_setFlag (s : State) (c : Bool) : (s.setFlag c).reg 15 = flagByte c :=
  (State.reg_setFlag s c 15).trans (if_pos rfl)

theorem State.vf_setFlag_zero_or_one (s : State) (c : Bool) : (s.setFlag c).reg 15 = 0 ∨ (s.setFlag c).reg 15 = 1 := by
  rw [State.vf_setFlag]
  exact RegsWritable.flagByte_eq c

theorem State.vf_setFlag_eq_one (s : State) (c : Bool) : (s.setFlag c).reg 15 = 1 ↔ c = true := by
  rw [State.vf_setFlag]
  cases c <;> decide

/-- The collision of DRW, in the words of R131: a 1 bit of the sprite met a set cell. -/
theorem State.draw_hit (s : State) (x y : RegIdx) (n : Nibble) (f : Frame) :
    (Frame.draw s.ext (s.sprite x y n) f (s.spriteRows n)).2 = true ↔
      ∃ r < s.spriteRows n, ∃ c < (s.sprite x y n).cols, s.spriteDot n r c = true ∧
        f.cell (((s.reg y).toNat + r) % s.height) (((s.reg x).toNat + c) % s.width) = true := by
  rw [Frame.draw_hit _ _ _ _ (s.spriteRows_le n)]
  constructor
  · rintro ⟨r, hr, c, hc, on, set⟩
    exact ⟨r, hr, c, hc, by rwa [← s.sprite_on x y n r c hc], set⟩
  · rintro ⟨r, hr, c, hc, on, set⟩
    exact ⟨r, hr, c, hc, by rwa [s.sprite_on x y n r c hc], set⟩

/-- The cell of a sprite bit after DRW. -/
theorem State.cell_draw (s : State) (x y : RegIdx) (n : Nibble) (f : Frame) {r c : Nat} (hr : r < s.spriteRows n)
    (hc : c < (s.sprite x y n).cols) :
    (Frame.draw s.ext (s.sprite x y n) f (s.spriteRows n)).1.cell
        (((s.reg y).toNat + r) % s.height) (((s.reg x).toNat + c) % s.width) =
      (f.cell (((s.reg y).toNat + r) % s.height) (((s.reg x).toNat + c) % s.width) ^^ s.spriteDot n r c) := by
  rw [← s.sprite_on x y n r c hc]
  exact Frame.cell_draw s.ext (s.sprite x y n) f (s.spriteRows_le n) (s.sprite_cols_le x y n) hr hc

/-- Settles O47: the picture is the drawn one and VF the collision (R131). -/
theorem drawXorsTheSpriteOntoTheGrid : Obligations.DrawXorsTheSpriteOntoTheGrid := by
  intro x y n s big rows cols px py
  refine ⟨_, exec_drw s x y n, BitVec.toNat_add s.pc 2, rfl, ?_, ?_, ?_, ?_, ?_, rfl, rfl, fun _ => rfl⟩
  · exact fun r hr c hc => s.cell_draw x y n s.fb hr hc
  · exact fun row col outside => Frame.cell_draw_outside s.ext (s.sprite x y n) s.fb (s.spriteRows_le n) outside
  · exact s.vf_setFlag_zero_or_one _
  · exact (s.vf_setFlag_eq_one _).trans (s.draw_hit x y n s.fb)
  · exact fun r hr => (State.reg_setFlag s _ r).trans (if_neg hr)

/-- Settles O48: with the registers put back the second DRW draws the same sprite, so it finds each cell of a 1 bit the other
way round (R138). -/
theorem drawingTwiceRestoresThePicture : Obligations.DrawingTwiceRestoresThePicture := by
  intro x y n s big rows cols
  refine ⟨_, _, exec_drw s x y n, exec_drw _ x y n, ?_, ?_⟩
  · exact Frame.draw_draw s.ext (s.sprite x y n) s.fb (s.spriteRows_le n)
  · refine ((State.vf_setFlag_eq_one _ _).trans (s.draw_hit x y n _)).trans ?_
    constructor
    · rintro ⟨r, hr, c, hc, on, set⟩
      rw [s.cell_draw x y n s.fb hr hc, on] at set
      exact ⟨r, hr, c, hc, on, by simpa using set⟩
    · rintro ⟨r, hr, c, hc, on, clear⟩
      refine ⟨r, hr, c, hc, on, ?_⟩
      rw [s.cell_draw x y n s.fb hr hc, on, clear]
      rfl

end Sys2Proof.Machine
end
